-- ==== Sys2Proof/Word.lean ====
section
/-! DEFINITION. The word types of the block: bytes, the fixed-width integers of the formats, and byte strings
(spec/00_scope.md R6, R7). -/

namespace Sys2Proof

/-- A byte is 8 bits (R6). -/
abbrev Byte := BitVec 8

/-- `u16` (R6): addresses, CRCs, indices, counts and the error registers. -/
abbrev U16 := BitVec 16

/-- `u64` (R6): the raw bits of a point (R151). -/
abbrev U64 := BitVec 64

/-- A byte string, first byte first in wire order (R7). -/
abbrev Bytes := List Byte

end Sys2Proof
end

