-- ==== Sys2Proof/Machine/Bytes.lean ====
section
/-! DEFINITION. Byte order and byte strings: `le_N`, `be_N`, `rd_le`, `rd_be`, `ceil` (spec/00_scope.md R6, R7). Every
multi-byte integer of the wire is least significant byte first (spec/20_memory.md R35); `be` and `rd_be` serve only a
descriptor with `big_endian = 1`. -/

namespace Sys2Proof.Machine

/-- `zext_8` of one bit. -/
def bit8 (b : Bool) : Byte := (BitVec.ofBool b).setWidth 8

/-- `ceil(a / b)` (R6). -/
def ceilDiv (a b : Nat) : Nat := (a + (b - 1)) / b

/-- `le16(v)` (R7): `[v[7:0], v[15:8]]`. -/
def le16 (v : U16) : Bytes := [v.extractLsb' 0 8, v.extractLsb' 8 8]

/-- `le_N(v)` (R7): the `N` low bytes of `v`, least significant first. -/
def leN : Nat → U64 → Bytes
  | 0, _ => []
  | n + 1, v => v.extractLsb' 0 8 :: leN n (v >>> 8)

/-- `be_N(v)` (R7): the bytes of `le_N(v)` in the reverse order. -/
def beN (n : Nat) (v : U64) : Bytes := (leN n v).reverse

/-- The unsigned value of a byte string whose first byte is the least significant (R7). -/
def leValue : Bytes → Nat
  | [] => 0
  | b :: bs => b.toNat + 256 * leValue bs

/-- The unsigned value of a byte string whose first byte is the most significant (R7). -/
def beValue (bs : Bytes) : Nat := leValue bs.reverse

/-- `s[i]` (R7). Every rule tests that `i` is in range before it reads (R32), so the byte for an absent `i` is never used. -/
def byteAt (s : Bytes) (i : Nat) : Byte := s.getD i 0

/-- `s[i .. i+n-1]` (R7). -/
def slice (s : Bytes) (i n : Nat) : Bytes := (s.drop i).take n

/-- `rd_le(s, i, N)` (R7). -/
def rdLe (s : Bytes) (i n : Nat) : Nat := leValue (slice s i n)

/-- `rd_be(s, i, N)` (R7). -/
def rdBe (s : Bytes) (i n : Nat) : Nat := beValue (slice s i n)

/-- `s[i] OR (s[i+1] << 8)`, the 16-bit little-endian value at offset `i` (R35). -/
def word16At (s : Bytes) (i : Nat) : U16 :=
  (byteAt s i).setWidth 16 ||| ((byteAt s (i + 1)).setWidth 16 <<< 8)

end Sys2Proof.Machine
end

