-- ==== Sys2Proof/Config.lean ====
section
/-! DEFINITION. The types of the configuration: the object descriptors of spec/30_encoding.md R59 and the parameters of
spec/00_scope.md R5. The values this hardware takes stand in Sys2Proof/Machine/Params.lean. The block leaves no
value open that a step computes with, so there is no free value here (NOTES.md, log entry 11). -/

namespace Sys2Proof

/-- `ptype` of R59: the point type. -/
inductive PType where
  | bi | bo | ctr | ai | ao | aoc
deriving DecidableEq, Repr

/-- `kind` of R59. -/
inductive Kind where
  | packed | boolflag | int | float
deriving DecidableEq, Repr

/-- `flag_pos` of R59; `inByte` is R60's "(in the byte)" of the BOOLFLAG rows. -/
inductive FlagPos where
  | none | before | after | inByte
deriving DecidableEq, Repr

/-- `flag_role` of R59; `none` is the "-" of R60's rows that have no flag byte. -/
inductive FlagRole where
  | none | quality | status
deriving DecidableEq, Repr

/-- An object descriptor (R59). `signed` matters for INT only; `vbytes` is 0 for PACKED and BOOLFLAG. -/
structure Descriptor where
  ptype     : PType
  kind      : Kind
  vbytes    : Nat
  signed    : Bool
  flagPos   : FlagPos
  flagRole  : FlagRole
  bigEndian : Bool
deriving DecidableEq, Repr

/-- One row of `OBJ_TABLE` (R60). -/
structure ObjRow where
  group     : Byte
  variation : Byte
  desc      : Descriptor
deriving DecidableEq, Repr

/-- The parameters of the block (R5), one field each, in the order of R5's table. -/
structure Config where
  crcWidth          : Nat
  crcInit           : U16
  crcReflected      : Bool
  crcPoly           : U16
  crcPolyR          : U16
  crcXorOut         : U16
  start0            : Byte
  start1            : Byte
  headerLen         : Nat
  hdrCrcSpan        : Nat
  lenBase           : Nat
  blockMax          : Nat
  linkPayloadMax    : Nat
  frameMax          : Nat
  tpSeqMod          : Nat
  tpFinBit          : Nat
  tpFirBit          : Nat
  segMax            : Nat
  apduMax           : Nat
  rxBufMax          : Nat
  appSeqMod         : Nat
  appFirBit         : Nat
  appFinBit         : Nat
  appConBit         : Nat
  appUnsBit         : Nat
  fcConfirm         : Byte
  fcResponse        : Byte
  fcRead            : Byte
  fcWrite           : Byte
  fcSelect          : Byte
  fcOperate         : Byte
  fcDirectOperate   : Byte
  qualRange8        : Byte
  qualRange16       : Byte
  qualAll           : Byte
  qualCountIndex16  : Byte
  objTable          : List ObjRow
deriving DecidableEq, Repr

end Sys2Proof
end

