-- ==== Sys2Proof/Machine/Params.lean ====
section
/-! DEFINITION. The values this hardware takes for the parameters of spec/00_scope.md R5, and the rows of `OBJ_TABLE`
(spec/30_encoding.md R60; fields in the order ptype, kind, vbytes, signed, flag_pos, flag_role, big_endian).
Where a source gives no value the spec's own decision is taken (spec/92_eei_decisions.md D3, D4, D6, D7, D14, D23 to D27);
the model adds none of its own (log entry 10). -/

namespace Sys2Proof.Machine

/-- R160. -/
def rowG1V1 : ObjRow :=
  ⟨1, 1, ⟨.bi, .packed, 0, false, .none, .none, false⟩⟩

/-- R161. -/
def rowG1V2 : ObjRow :=
  ⟨1, 2, ⟨.bi, .boolflag, 0, false, .inByte, .quality, false⟩⟩

/-- R162. -/
def rowG10V1 : ObjRow :=
  ⟨10, 1, ⟨.bo, .packed, 0, false, .none, .none, false⟩⟩

/-- R163. -/
def rowG10V2 : ObjRow :=
  ⟨10, 2, ⟨.bo, .boolflag, 0, false, .inByte, .quality, false⟩⟩

/-- R164. -/
def rowG20V1 : ObjRow :=
  ⟨20, 1, ⟨.ctr, .int, 4, false, .before, .quality, false⟩⟩

/-- R165. -/
def rowG20V2 : ObjRow :=
  ⟨20, 2, ⟨.ctr, .int, 2, false, .before, .quality, false⟩⟩

/-- R166. -/
def rowG20V5 : ObjRow :=
  ⟨20, 5, ⟨.ctr, .int, 4, false, .none, .none, false⟩⟩

/-- R167. -/
def rowG20V6 : ObjRow :=
  ⟨20, 6, ⟨.ctr, .int, 2, false, .none, .none, false⟩⟩

/-- R168. -/
def rowG30V1 : ObjRow :=
  ⟨30, 1, ⟨.ai, .int, 4, true, .before, .quality, false⟩⟩

/-- R169. -/
def rowG30V2 : ObjRow :=
  ⟨30, 2, ⟨.ai, .int, 2, true, .before, .quality, false⟩⟩

/-- R170. -/
def rowG30V3 : ObjRow :=
  ⟨30, 3, ⟨.ai, .int, 4, true, .none, .none, false⟩⟩

/-- R171. -/
def rowG30V4 : ObjRow :=
  ⟨30, 4, ⟨.ai, .int, 2, true, .none, .none, false⟩⟩

/-- R172. -/
def rowG30V5 : ObjRow :=
  ⟨30, 5, ⟨.ai, .float, 4, false, .before, .quality, false⟩⟩

/-- R173. -/
def rowG30V6 : ObjRow :=
  ⟨30, 6, ⟨.ai, .float, 8, false, .before, .quality, false⟩⟩

/-- R174. -/
def rowG40V1 : ObjRow :=
  ⟨40, 1, ⟨.ao, .int, 4, true, .before, .quality, false⟩⟩

/-- R175. -/
def rowG40V2 : ObjRow :=
  ⟨40, 2, ⟨.ao, .int, 2, true, .before, .quality, false⟩⟩

/-- R176. -/
def rowG40V3 : ObjRow :=
  ⟨40, 3, ⟨.ao, .float, 4, false, .before, .quality, false⟩⟩

/-- R177. -/
def rowG40V4 : ObjRow :=
  ⟨40, 4, ⟨.ao, .float, 8, false, .before, .quality, false⟩⟩

/-- R178. -/
def rowG41V1 : ObjRow :=
  ⟨41, 1, ⟨.aoc, .int, 4, true, .after, .status, false⟩⟩

/-- R179. -/
def rowG41V2 : ObjRow :=
  ⟨41, 2, ⟨.aoc, .int, 2, true, .after, .status, false⟩⟩

/-- R180. -/
def rowG41V3 : ObjRow :=
  ⟨41, 3, ⟨.aoc, .float, 4, false, .after, .status, false⟩⟩

/-- R181. -/
def rowG41V4 : ObjRow :=
  ⟨41, 4, ⟨.aoc, .float, 8, false, .after, .status, false⟩⟩

/-- `OBJ_TABLE` (R60): the 22 rows, in the table's order. -/
def objTable : List ObjRow :=
  [rowG1V1, rowG1V2, rowG10V1, rowG10V2, rowG20V1, rowG20V2, rowG20V5, rowG20V6,
   rowG30V1, rowG30V2, rowG30V3, rowG30V4, rowG30V5, rowG30V6,
   rowG40V1, rowG40V2, rowG40V3, rowG40V4, rowG41V1, rowG41V2, rowG41V3, rowG41V4]

/-- The parameter values of R5. -/
def cfg : Config where
  crcWidth := 16
  crcInit := 0x0000
  crcReflected := true
  crcPoly := 0x3D65
  crcPolyR := 0xA6BC
  crcXorOut := 0xFFFF
  start0 := 0x05
  start1 := 0x64
  headerLen := 10
  hdrCrcSpan := 6
  lenBase := 5
  blockMax := 16
  linkPayloadMax := 250
  frameMax := 292
  tpSeqMod := 64
  tpFinBit := 7
  tpFirBit := 6
  segMax := 249
  apduMax := 4096
  rxBufMax := 4096
  appSeqMod := 16
  appFirBit := 7
  appFinBit := 6
  appConBit := 5
  appUnsBit := 4
  fcConfirm := 0x00
  fcResponse := 0x81
  fcRead := 0x01
  fcWrite := 0x02
  fcSelect := 0x03
  fcOperate := 0x04
  fcDirectOperate := 0x05
  qualRange8 := 0x00
  qualRange16 := 0x01
  qualAll := 0x06
  qualCountIndex16 := 0x28
  objTable := objTable

/-- The capacity of the OUT space (R30): three times `APDU_MAX`. -/
def outCapacity : Nat := 3 * cfg.apduMax

/-- `OBJ_TABLE(g, v)`: the descriptor of a (group, variation), none where the table has no row (R60). -/
def lookupObj (g v : Byte) : Option Descriptor :=
  (cfg.objTable.find? (fun r => r.group == g && r.variation == v)).map (·.desc)

end Sys2Proof.Machine
end

