-- ==== Sys2Proof/Syntax.lean ====
section
/-! DEFINITION. The syntax of the block's inputs: the operand types of the operations, the one inductive `Instr` with one
constructor per row of spec/opcode_table.json, and the word the host issues (`Issue`).
The first 16 constructors are the commands of spec/30_encoding.md R47 and R48. The other 41 rows of the table are wire
formats and their code points, not commands (R45); an instruction of such a row is one use of the format by the
block: BUILD (the encoder that writes the item runs) or PARSE (the decoder that reads the item runs on an operand that
holds it). Log entry 2 says why and how. -/

namespace Sys2Proof

/-- `form` of a block operand (R137). -/
inductive Form where
  /-- the named indices, 0 to 65535 of them -/
  | index (idx : List U16)
  /-- every index from `start` to `stop` -/
  | range (start stop : U16)
  /-- every point of the group; request blocks only -/
  | all
deriving DecidableEq, Repr

/-- A point entry of a data block (R137): `raw` holds the value's bits, `flags` the flag byte. -/
structure PointEntry where
  raw   : U64
  flags : Byte
deriving DecidableEq, Repr

/-- A request block (R137). -/
structure ReqBlock where
  group     : Byte
  variation : Byte
  form      : Form
deriving DecidableEq, Repr

/-- A data block operand of an encoder (R137). -/
structure DataBlock where
  group     : Byte
  variation : Byte
  form      : Form
  points    : List PointEntry
deriving DecidableEq, Repr

/-- The link header operands of LINK.ENC (R96, R101). -/
structure LinkAddr where
  control : Byte
  dest    : U16
  src     : U16
deriving DecidableEq, Repr

/-- The fields of the application control byte (R53). -/
structure ApcBits where
  fir : Bool
  fin : Bool
  con : Bool
  uns : Bool
  seq : BitVec 4
deriving DecidableEq, Repr

/-- The operands of APP.ENC.READ (R141). -/
structure ReadArgs where
  con    : Bool
  seq    : BitVec 4
  blocks : List ReqBlock
deriving DecidableEq, Repr

/-- The operands of APP.ENC.WRITE (R142) but for `func`. -/
structure WriteArgs where
  con    : Bool
  seq    : BitVec 4
  blocks : List DataBlock
deriving DecidableEq, Repr

/-- The operands of APP.ENC.CONFIRM (R143). -/
structure ConfirmArgs where
  seq : BitVec 4
  uns : Bool
deriving DecidableEq, Repr

/-- The operands of APP.ENC.RESP (R144). -/
structure RespArgs where
  ctrl   : ApcBits
  iin1   : Byte
  iin2   : Byte
  blocks : List DataBlock
deriving DecidableEq, Repr

/-- The two uses of a wire format: an encoder writes it, or a decoder reads it. -/
inductive Use (α β : Type) where
  | build (a : α)
  | parse (b : β)
deriving DecidableEq, Repr

/-- A received link header (R49) and the bytes after it. -/
structure LnkParse where
  start0  : Byte
  start1  : Byte
  length  : Byte
  control : Byte
  dest    : U16
  src     : U16
  hcrc    : U16
  tail    : Bytes
deriving DecidableEq, Repr

/-- One data block to send (R50), 1 to 16 bytes, under a header of the given fields. -/
structure BlkBuild where
  addr    : LinkAddr
  payload : Bytes
deriving DecidableEq, Repr

/-- One received data block (R50) with its block CRC, under the header of its frame. -/
structure BlkParse where
  addr    : LinkAddr
  payload : Bytes
  bcrc    : U16
deriving DecidableEq, Repr

/-- A received transport header (R52) and the segment payload after it. -/
structure TphParse where
  fin  : Bool
  fir  : Bool
  seq  : BitVec 6
  data : Bytes
deriving DecidableEq, Repr

/-- A received application control byte (R53) and the rest of its fragment. -/
structure ApcParse where
  ctrl : ApcBits
  tail : Bytes
deriving DecidableEq, Repr

/-- A received internal-indication field (R55), the control byte of its fragment, and the bytes after it. -/
structure IinParse where
  apc  : Byte
  iin1 : Byte
  iin2 : Byte
  tail : Bytes
deriving DecidableEq, Repr

/-- What stands around a received function code (R54): the control byte before it and the bytes after it. -/
structure FcParse where
  apc  : Byte
  tail : Bytes
deriving DecidableEq, Repr

/-- The header of a RESPONSE fragment around a received object block: control byte and internal indications. -/
structure ObjCtx where
  apc  : Byte
  iin1 : Byte
  iin2 : Byte
deriving DecidableEq, Repr

/-- What names the one request block a qualifier is built for: APP.ENC.READ's bits and the group and variation. -/
structure QualBuild where
  con       : Bool
  seq       : BitVec 4
  group     : Byte
  variation : Byte
deriving DecidableEq, Repr

/-- QUAL.RANGE8 to build: `start` and `stop` are u8 (R185). -/
structure Range8Build where
  block : QualBuild
  start : Byte
  stop  : Byte
deriving DecidableEq, Repr

/-- QUAL.RANGE16 to build: `start` and `stop` are u16 (R186). -/
structure Range16Build where
  block : QualBuild
  start : U16
  stop  : U16
deriving DecidableEq, Repr

/-- QUAL.COUNT_INDEX16 to build: the indices (R188). -/
structure CountIndexBuild where
  block : QualBuild
  idx   : List U16
deriving DecidableEq, Repr

/-- What stands around a received qualifier byte: the fragment header, the object, and the bytes after the qualifier. -/
structure QualParse where
  ctx       : ObjCtx
  group     : Byte
  variation : Byte
  tail      : Bytes
deriving DecidableEq, Repr

/-- An object block of one row of the object table to send in a write-class request (R142). -/
structure ObjBuild where
  con    : Bool
  seq    : BitVec 4
  func   : Byte
  form   : Form
  points : List PointEntry
deriving DecidableEq, Repr

/-- A received object block of one row of the object table: qualifier byte and what follows it. -/
structure ObjParse where
  ctx       : ObjCtx
  qualifier : Byte
  tail      : Bytes
deriving DecidableEq, Repr

/-- The use of an object row. -/
abbrev ObjUse := Use ObjBuild ObjParse

/-- One constructor per row of spec/opcode_table.json, in the table's order. -/
inductive Instr where
  -- format OP: the commands (R47, R48)
  | crcClr
  | crcUpd (b : Byte)
  | crcRd
  | crcCalc
  | crcChk
  | linkEnc (a : LinkAddr)
  | linkDec
  | tpSeg (seg : Byte)
  | tpRx
  | tpRst
  | appEncRead (a : ReadArgs)
  | appEncWrite (func : Byte) (a : WriteArgs)
  | appEncConfirm (a : ConfirmArgs)
  | appEncResp (a : RespArgs)
  | appDec
  | illegal (op : Byte)
  -- formats LNK, BLK, TPH, APC, IIN (R49, R50, R52, R53, R55)
  | lnk (u : Use LinkAddr LnkParse)
  | blk (u : Use BlkBuild BlkParse)
  | tph (u : Use Byte TphParse)
  | apc (u : Use RespArgs ApcParse)
  | iin (u : Use RespArgs IinParse)
  -- format FC: the function codes (R190 to R197)
  | fcConfirm (u : Use ConfirmArgs FcParse)
  | fcRead (u : Use ReadArgs FcParse)
  | fcWrite (u : Use WriteArgs FcParse)
  | fcSelect (u : Use WriteArgs FcParse)
  | fcOperate (u : Use WriteArgs FcParse)
  | fcDirectOperate (u : Use WriteArgs FcParse)
  | fcResponse (u : Use RespArgs FcParse)
  | fcOther (code : Byte) (u : Use WriteArgs FcParse)
  -- format QUAL: the qualifier codes (R185 to R188, R148)
  | qualRange8 (u : Use Range8Build QualParse)
  | qualRange16 (u : Use Range16Build QualParse)
  | qualAll (u : Use QualBuild QualParse)
  | qualCountIndex16 (u : Use CountIndexBuild QualParse)
  | qualOther (q : Byte) (p : QualParse)
  -- format OBJ: the object variations (R160 to R181, R147)
  | objG1v1 (u : ObjUse)
  | objG1v2 (u : ObjUse)
  | objG10v1 (u : ObjUse)
  | objG10v2 (u : ObjUse)
  | objG20v1 (u : ObjUse)
  | objG20v2 (u : ObjUse)
  | objG20v5 (u : ObjUse)
  | objG20v6 (u : ObjUse)
  | objG30v1 (u : ObjUse)
  | objG30v2 (u : ObjUse)
  | objG30v3 (u : ObjUse)
  | objG30v4 (u : ObjUse)
  | objG30v5 (u : ObjUse)
  | objG30v6 (u : ObjUse)
  | objG40v1 (u : ObjUse)
  | objG40v2 (u : ObjUse)
  | objG40v3 (u : ObjUse)
  | objG40v4 (u : ObjUse)
  | objG41v1 (u : ObjUse)
  | objG41v2 (u : ObjUse)
  | objG41v3 (u : ObjUse)
  | objG41v4 (u : ObjUse)
  | objOther (group variation : Byte) (u : ObjUse)
deriving DecidableEq, Repr

/-- The "format" column of spec/opcode_table.json: what the code bytes of an issued word are. -/
inductive Format where
  | op | lnk | blk | tph | apc | iin | fc | qual | obj
deriving DecidableEq, Repr

/-- Whether an issued wire item is parsed or built. -/
inductive Dir where
  | parse | build
deriving DecidableEq, Repr

/-- The named operand fields of an issued word: every operand any operation takes, under its own name. R46 fixes no bit
layout for operands ("a model passes them as arguments"), so they stay named fields. A field the selected instruction does
not take is not looked at. -/
structure Args where
  dir        : Dir := .parse
  b          : Byte := 0
  control    : Byte := 0
  dest       : U16 := 0
  src        : U16 := 0
  seg        : Byte := 0
  func       : Byte := 0
  fir        : Bool := false
  fin        : Bool := false
  con        : Bool := false
  uns        : Bool := false
  seq        : BitVec 4 := 0
  iin1       : Byte := 0
  iin2       : Byte := 0
  apc        : Byte := 0
  group      : Byte := 0
  variation  : Byte := 0
  start      : U16 := 0
  stop       : U16 := 0
  idx        : List U16 := []
  form       : Form := .index []
  points     : List PointEntry := []
  reqBlocks  : List ReqBlock := []
  dataBlocks : List DataBlock := []
  tail       : Bytes := []
deriving DecidableEq, Repr

/-- One word the host issues: the format of its code bytes, the code bytes themselves as the table encodes them, and the
named operands (R46). A command is format `op` with its one code byte. -/
structure Issue where
  format : Format
  code   : Bytes
  args   : Args
deriving DecidableEq, Repr

/-- What the host does at the port: it writes IN, or it issues a word (R39, R40). -/
inductive HostAct where
  | writeIn (bs : Bytes)
  | issue (w : Issue)
deriving DecidableEq, Repr

/-- Why a word cannot be issued: the spec gives no such operand or item. -/
inductive DecodeError where
  /-- the code bytes are not as many as the format has -/
  | codeLength
  /-- an `INDEX` operand with more than 65535 indices (R137) -/
  | indexTooLong
  /-- an operand that does not fit the IN buffer (R30) -/
  | operandTooLong
  /-- a data block of 0 or more than 16 payload bytes (R50) -/
  | blockSize
  /-- an instruction of a catch-all row whose code another row has (no word decodes to it) -/
  | assignedCode
deriving DecidableEq, Repr

end Sys2Proof
end

