-- ==== Sys2Proof/Machine/Flags.lean ====
section
/-! DEFINITION. Every bit field of the one-byte headers and of the flag bytes: transport header (spec/30_encoding.md R52),
application control byte (R53), quality and status flag bytes (R61, R63). The block's one flag register, `FLAGS.STALE`,
is a field of State; spec/42_transport.md R118 says what writes it. -/

namespace Sys2Proof.Machine

/-- The transport header byte: `(fin << 7) OR (fir << 6) OR seq` (R52, R116). -/
def tphByte (fin fir : Bool) (seq : BitVec 6) : Byte :=
  (bit8 fin <<< cfg.tpFinBit) ||| (bit8 fir <<< cfg.tpFirBit) ||| seq.setWidth 8

/-- `FIN` of a transport header (R52). -/
def tphFin (h : Byte) : Bool := h.getLsbD cfg.tpFinBit

/-- `FIR` of a transport header (R52). -/
def tphFir (h : Byte) : Bool := h.getLsbD cfg.tpFirBit

/-- `SEQ` of a transport header (R52). -/
def tphSeq (h : Byte) : BitVec 6 := h.setWidth 6

/-- The application control byte (R53, R144). -/
def apcByte (a : ApcBits) : Byte :=
  (bit8 a.fir <<< cfg.appFirBit) ||| (bit8 a.fin <<< cfg.appFinBit) ||| (bit8 a.con <<< cfg.appConBit)
    ||| (bit8 a.uns <<< cfg.appUnsBit) ||| a.seq.setWidth 8

/-- The fields of an application control byte (R53, R146). -/
def apcBits (b : Byte) : ApcBits where
  fir := b.getLsbD cfg.appFirBit
  fin := b.getLsbD cfg.appFinBit
  con := b.getLsbD cfg.appConBit
  uns := b.getLsbD cfg.appUnsBit
  seq := b.setWidth 4

/-- The control byte of a request: FIR = FIN = 1, UNS = 0 (R141, R142). -/
def requestApc (con : Bool) (seq : BitVec 4) : Byte := apcByte ⟨true, true, con, false, seq⟩

/-- The control byte of a CONFIRM: FIR = FIN = 1, CON = 0 (R143). -/
def confirmApc (uns : Bool) (seq : BitVec 4) : Byte := apcByte ⟨true, true, false, uns, seq⟩

/-- `iin = iin1 OR (iin2 << 8)` (R55). -/
def iinWord (iin1 iin2 : Byte) : U16 := iin1.setWidth 16 ||| (iin2.setWidth 16 <<< 8)

/-- The byte of a BOOLFLAG point: `(flags AND 0x7F) OR (raw[0] << 7)` (R139). -/
def boolflagByte (flags : Byte) (state : Bool) : Byte := (flags &&& 0x7F) ||| (bit8 state <<< 7)

/-- The state of a BOOLFLAG point: bit 7 (R61, R150). -/
def boolflagState (b : Byte) : Bool := b.getLsbD 7

/-- `has_online`: a flag byte came and it is a quality byte (R150). -/
def hasOnlineOf (hasFlags : Bool) (role : FlagRole) : Bool := hasFlags && (role == .quality)

/-- `online`: bit 0 of a quality byte, false where there is none (R63, R150). -/
def onlineOf (hasFlags : Bool) (role : FlagRole) (flags : Byte) : Bool :=
  hasOnlineOf hasFlags role && flags.getLsbD 0

end Sys2Proof.Machine
end

