-- ==== Sys2Proof/Machine/State.lean ====
section
/-! DEFINITION. The state of one instance of the block (spec/10_state.md R10 to R19, spec/20_memory.md R30), the results of
its last operation, and the host's port; the reasons a step can stop; the state after reset (R24, R231). -/

namespace Sys2Proof.Machine

/-- The non-error statuses (spec/60_exceptions.md R201, R203). -/
inductive Done where
  | ok | pending | linkOnly
deriving DecidableEq, Repr

/-- The error statuses (R201). An error is no stop of the model: the operation ends and the machine goes on (R207). -/
inductive Err where
  | truncated | badStart | badHeaderCrc | badBlockCrc | badLength | payloadTooLong
  | sequenceMismatch | noFir | overflow | badSegSize
  | unknownObject | truncatedObject | badQualifier | unexpectedFunction
  | encUnknownObject | encBadForm | encTooLong
  | illegalOp
deriving DecidableEq, Repr

/-- `<Error>(offset, expected, actual)` (R202). -/
structure Fail where
  err      : Err
  offset   : Nat
  expected : Nat
  actual   : Nat
deriving DecidableEq, Repr

/-- A sparse byte memory: (offset, byte) pairs, offsets strictly rising. It holds the bytes something has written. An
unlisted offset has no value: the contents after reset are unspecified (R16), and reading one stops the step. -/
abbrev Memory := List Host.Cell

/-- A point record, the cell of the PTS space (R151). `value` is absent for FLOAT. -/
structure PointRec where
  group     : Byte
  variation : Byte
  ptype     : PType
  kind      : Kind
  index     : U16
  raw       : U64
  value     : Option Int
  hasFlags  : Bool
  flags     : Byte
  hasOnline : Bool
  online    : Bool
deriving DecidableEq, Repr

/-- `kind` of a decoded fragment (R145). -/
inductive FragKind where
  | response | confirm
deriving DecidableEq, Repr

/-- The header results of APP.DEC (R145, R146). `npts` is `State.npts`, the length of PTS. -/
structure AppHeader where
  ctrl   : ApcBits
  func   : Byte
  kind   : FragKind
  hasIin : Bool
  iin1   : Byte
  iin2   : Byte
  iin    : U16
deriving DecidableEq, Repr

/-- The named results of the last operation. `none`: it has none, or it failed and they are invalid (R205); a failed
LINK.DEC still gives `consumed` (R104). -/
inductive Results where
  | none
  | crc (crc : U16)
  | check (ok : Bool) (computed received : U16)
  | link (control : Byte) (dest src consumed : U16)
  | dropped (consumed : U16)
  | segments (nseg : U16)
  | fragment (h : AppHeader)
deriving DecidableEq, Repr

/-- The state of the machine: the ten registers and RX_BUF (R10), the three spaces the host shares (R30), the named results,
and the host's port. -/
structure State where
  /-- `CRC_ACC` (R11) -/
  crcAcc      : U16
  /-- `TX_SEQ` (R12) -/
  txSeq       : BitVec 6
  /-- `RX_ACTIVE` (R13) -/
  rxActive    : Bool
  /-- `RX_EXPECT` (R14) -/
  rxExpect    : BitVec 6
  /-- `RX_LEN` (R15) -/
  rxLen       : BitVec 13
  /-- `RX_BUF`, the RXB space (R16) -/
  rxBuf       : Memory
  /-- `FLAGS.STALE` (R17) -/
  stale       : Bool
  /-- `STATUS` (R18) -/
  status      : Byte
  /-- `ERR_OFFSET` (R19) -/
  errOffset   : U16
  /-- `ERR_EXPECTED` (R19) -/
  errExpected : U16
  /-- `ERR_ACTUAL` (R19) -/
  errActual   : U16
  /-- the IN space (R30): its `len(IN)` bytes in order of offset -/
  inBuf       : Bytes
  /-- the OUT space (R30) -/
  outBuf      : Bytes
  /-- the PTS space (R30) -/
  pts         : List PointRec
  /-- the named results (R20) -/
  results     : Results
  /-- the model's own field: what the host is still to do at the port, in order (R40) -/
  port        : List HostAct
deriving DecidableEq, Repr

/-- Why a step stops with a fault. -/
inductive Fault where
  /-- TP.RX would deliver a byte of RX_BUF that nothing has written. Safe: R16 says such a byte has no meaning, and no
  state with `State.Inv` reaches it. -/
  | rxbUnwritten
deriving DecidableEq, Repr

/-- Why a step is refused. -/
inductive Refusal where
  /-- exec has no meaning for the instruction (raised by a refused arm of exec; there is none). Safe. -/
  | notModelled (mnemonic : String)
  /-- step: the issued word is not one the spec gives a meaning (`decode` says why). Safe. -/
  | undecodable (e : DecodeError)
  /-- step: the host writes more bytes than IN holds (R30). Safe. -/
  | inOverCapacity
deriving DecidableEq, Repr

/-- The outcome of a step of this machine. -/
abbrev Result := Host.Outcome State Fault Refusal

/-- The machine right after reset (R24, R231). The host has asked for nothing yet. -/
def State.reset : State where
  crcAcc := 0x0000
  txSeq := 0
  rxActive := false
  rxExpect := 0
  rxLen := 0
  rxBuf := []
  stale := false
  status := 0x00
  errOffset := 0
  errExpected := 0
  errActual := 0
  inBuf := []
  outBuf := []
  pts := []
  results := .none
  port := []

end Sys2Proof.Machine
end

