-- ==== Sys2Proof/Machine/Operands.lean ====
section
/-! DEFINITION. The operand forms and object layouts of the Application unit: qualifiers and range fields of the forms
(spec/43_application.md R138), the bytes of a point and of a data area (R139; spec/30_encoding.md R59 to R62), and the
record of a decoded point (R150, R151). -/

namespace Sys2Proof.Machine

/-- The qualifier an encoder writes for a form (R138). -/
def formQualifier : Form → Byte
  | .index _ => cfg.qualCountIndex16
  | .range _ stop => if stop.toNat ≤ 255 then cfg.qualRange8 else cfg.qualRange16
  | .all => cfg.qualAll

/-- The range field of a form (R138). -/
def formRange : Form → Bytes
  | .index idx => le16 (BitVec.ofNat 16 idx.length)
  | .range start stop =>
    if stop.toNat ≤ 255 then [start.extractLsb' 0 8, stop.extractLsb' 0 8] else le16 start ++ le16 stop
  | .all => []

/-- `enc_header(b)` (R138). -/
def encHeader (g v : Byte) (f : Form) : Bytes := [g, v, formQualifier f] ++ formRange f

/-- How many points a form names (R137, R142). The form ALL names no number and never gets here. -/
def formCount : Form → Nat
  | .index idx => idx.length
  | .range start stop => stop.toNat - start.toNat + 1
  | .all => 0

/-- Whether a form is INDEX: the form whose points carry an index before each (R58). -/
def formIsIndex : Form → Bool
  | .index _ => true
  | .range _ _ => false
  | .all => false

/-- `size` of a descriptor (R59): bytes per point; 0 for PACKED, which has none. -/
def pointSize (d : Descriptor) : Nat :=
  match d.kind with
  | .packed => 0
  | .boolflag => 1
  | .int | .float => d.vbytes + if d.flagPos = .none then 0 else 1

/-- The value bytes of a point (R139). -/
def valueBytes (d : Descriptor) (raw : U64) : Bytes :=
  if d.bigEndian then beN d.vbytes raw else leN d.vbytes raw

/-- `enc_point(d, e)` (R139). PACKED points are not encoded one by one. -/
def encPoint (d : Descriptor) (e : PointEntry) : Bytes :=
  match d.kind with
  | .packed => []
  | .boolflag => [boolflagByte e.flags (e.raw.getLsbD 0)]
  | .int | .float =>
    match d.flagPos with
    | .before => e.flags :: valueBytes d e.raw
    | .after => valueBytes d e.raw ++ [e.flags]
    | .none | .inByte => valueBytes d e.raw

/-- One byte of packed bits, the first bit least significant (R62). -/
def packByte : List Bool → Byte
  | [] => 0
  | b :: bs => bit8 b ||| (packByte bs <<< 1)

/-- `nb` bytes of packed bits, 8 to a byte, the unused high bits 0 (R62, R139). -/
def packBits : Nat → List Bool → Bytes
  | 0, _ => []
  | nb + 1, bits => packByte (bits.take 8) :: packBits nb (bits.drop 8)

/-- `enc_data(b, d)` (R139). -/
def encData (d : Descriptor) (f : Form) (points : List PointEntry) : Bytes :=
  match d.kind with
  | .packed => packBits (ceilDiv (formCount f) 8) (points.map (fun e => e.raw.getLsbD 0))
  | _ =>
    match f with
    | .index idx => (idx.zip points).flatMap (fun x => le16 x.1 ++ encPoint d x.2)
    | _ => points.flatMap (encPoint d)

/-- The decoded number of a point (R150): signed or unsigned for INT, none for FLOAT. -/
def pointValue (d : Descriptor) (raw : Nat) : Option Int :=
  match d.kind with
  | .int => if d.signed then some (BitVec.ofNat (8 * d.vbytes) raw).toInt else some raw
  | .float => none
  | .boolflag | .packed => some raw

/-- A point record whose flag byte is given or absent (R150, R151). An absent byte is reported as 0, as R150's case NONE
says. -/
def pointRecord (d : Descriptor) (g v : Byte) (index : U16) (raw : Nat) (flagByte : Option Byte) : PointRec where
  group := g
  variation := v
  ptype := d.ptype
  kind := d.kind
  index := index
  raw := BitVec.ofNat 64 raw
  value := pointValue d raw
  hasFlags := flagByte.isSome
  flags := flagByte.getD 0
  hasOnline := hasOnlineOf flagByte.isSome d.flagRole
  online := onlineOf flagByte.isSome d.flagRole (flagByte.getD 0)

/-- The value field at offset `p` (R150). -/
def readValue (d : Descriptor) (f : Bytes) (p : Nat) : Nat :=
  if d.bigEndian then rdBe f p d.vbytes else rdLe f p d.vbytes

/-- `dec_point(d, g, v, index, f, p)` (R150). -/
def decPoint (d : Descriptor) (g v : Byte) (index : U16) (f : Bytes) (p : Nat) : PointRec :=
  match d.kind with
  | .boolflag => pointRecord d g v index (boolflagState (byteAt f p)).toNat (some (byteAt f p))
  | _ =>
    match d.flagPos with
    | .before => pointRecord d g v index (readValue d f (p + 1)) (some (byteAt f p))
    | .after => pointRecord d g v index (readValue d f p) (some (byteAt f (p + d.vbytes)))
    | .none | .inByte => pointRecord d g v index (readValue d f p) none

/-- Point `i` of a packed data area at offset `p`: bit `i mod 8` of byte `i / 8`, with no flags (R62, R149). -/
def decPacked (d : Descriptor) (g v : Byte) (start : Nat) (f : Bytes) (p i : Nat) : PointRec :=
  pointRecord d g v (BitVec.ofNat 16 (start + i)) ((byteAt f (p + i / 8)).getLsbD (i % 8)).toNat none

end Sys2Proof.Machine
end

