-- ==== Sys2Proof/WellFormed.lean ====
section
/-! DEFINITION. Which instructions the spec's operand types admit. `Instr.problem` names what is wrong with one, and
`Instr.WellFormed` says that nothing is. Operands whose type is a fixed width (`u8`, `u16`, a bit, 4 bits) need no check. -/

namespace Sys2Proof

open Machine (cfg)

/-- `INDEX(idx)` holds 0 to 65535 values (R137). -/
def Form.fits : Form → Bool
  | .index idx => decide (idx.length ≤ 65535)
  | .range _ _ => true
  | .all => true

/-- An index list that is too long, if there is one among the forms. -/
def formsProblem (fs : List Form) : Option DecodeError :=
  if fs.all Form.fits then none else some .indexTooLong

/-- An operand of `n` bytes must fit IN (R30). -/
def lengthProblem (n : Nat) : Option DecodeError :=
  if n ≤ cfg.apduMax then none else some .operandTooLong

/-- A data block holds 1 to 16 payload bytes (R50). -/
def blockProblem (p : Bytes) : Option DecodeError :=
  if 1 ≤ p.length ∧ p.length ≤ cfg.blockMax then none else some .blockSize

/-- The command codes that select an operation (R47). -/
def opCodes : List Byte :=
  [0x00, 0x01, 0x02, 0x03, 0x04, 0x10, 0x11, 0x20, 0x21, 0x22, 0x30, 0x31, 0x32, 0x33, 0x34]

/-- The function codes that have a row of their own (R54). -/
def functionCodes : List Byte :=
  [cfg.fcConfirm, cfg.fcRead, cfg.fcWrite, cfg.fcSelect, cfg.fcOperate, cfg.fcDirectOperate, cfg.fcResponse]

/-- The qualifier codes that have a row of their own (R57). -/
def qualifierCodes : List Byte :=
  [cfg.qualRange8, cfg.qualRange16, cfg.qualAll, cfg.qualCountIndex16]

/-- A code of a catch-all row must be one no other row has. -/
def otherProblem (assigned : Bool) : Option DecodeError :=
  if assigned then some .assignedCode else none

/-- The bytes of a fragment header with internal indications and of an object header: what stands before `tail` in the
operand of a QUAL or OBJ item (R136, R56). -/
def objHeaderLen : Nat := 7

/-- The check of an object row's use. -/
def objProblem : ObjUse → Option DecodeError
  | .build b => formsProblem [b.form]
  | .parse p => lengthProblem (objHeaderLen + p.tail.length)

/-- The check of a qualifier item to parse. -/
def qualProblem (p : QualParse) : Option DecodeError := lengthProblem (objHeaderLen + p.tail.length)

/-- The check of the operand of an encoder of data blocks. -/
def dataProblem (blocks : List DataBlock) : Option DecodeError := formsProblem (blocks.map (·.form))

/-- The check of a function code item to parse. -/
def fcProblem (p : FcParse) : Option DecodeError := lengthProblem (2 + p.tail.length)

/-- What is wrong with an instruction's operands, if anything. -/
def Instr.problem : Instr → Option DecodeError
  | .crcClr | .crcUpd _ | .crcRd | .crcCalc | .crcChk => none
  | .linkEnc _ | .linkDec | .tpSeg _ | .tpRx | .tpRst => none
  | .appEncRead a => formsProblem (a.blocks.map (·.form))
  | .appEncWrite _ a => dataProblem a.blocks
  | .appEncConfirm _ => none
  | .appEncResp a => dataProblem a.blocks
  | .appDec => none
  | .illegal op => otherProblem (opCodes.contains op)
  | .lnk (.build _) => none
  | .lnk (.parse p) => lengthProblem (cfg.headerLen + p.tail.length)
  | .blk (.build b) => blockProblem b.payload
  | .blk (.parse p) => blockProblem p.payload
  | .tph (.build _) => none
  | .tph (.parse p) => lengthProblem (1 + p.data.length)
  | .apc (.build a) => dataProblem a.blocks
  | .apc (.parse p) => lengthProblem (1 + p.tail.length)
  | .iin (.build a) => dataProblem a.blocks
  | .iin (.parse p) => lengthProblem (4 + p.tail.length)
  | .fcConfirm (.build _) => none
  | .fcConfirm (.parse p) => fcProblem p
  | .fcRead (.build a) => formsProblem (a.blocks.map (·.form))
  | .fcRead (.parse p) => fcProblem p
  | .fcWrite (.build a) => dataProblem a.blocks
  | .fcWrite (.parse p) => fcProblem p
  | .fcSelect (.build a) => dataProblem a.blocks
  | .fcSelect (.parse p) => fcProblem p
  | .fcOperate (.build a) => dataProblem a.blocks
  | .fcOperate (.parse p) => fcProblem p
  | .fcDirectOperate (.build a) => dataProblem a.blocks
  | .fcDirectOperate (.parse p) => fcProblem p
  | .fcResponse (.build a) => dataProblem a.blocks
  | .fcResponse (.parse p) => fcProblem p
  | .fcOther c (.build a) => (otherProblem (functionCodes.contains c)).or (dataProblem a.blocks)
  | .fcOther c (.parse p) => (otherProblem (functionCodes.contains c)).or (fcProblem p)
  | .qualRange8 (.build _) | .qualRange16 (.build _) | .qualAll (.build _) => none
  | .qualCountIndex16 (.build b) => formsProblem [.index b.idx]
  | .qualRange8 (.parse p) | .qualRange16 (.parse p) => qualProblem p
  | .qualAll (.parse p) | .qualCountIndex16 (.parse p) => qualProblem p
  | .qualOther q p => (otherProblem (qualifierCodes.contains q)).or (qualProblem p)
  | .objG1v1 u | .objG1v2 u | .objG10v1 u | .objG10v2 u => objProblem u
  | .objG20v1 u | .objG20v2 u | .objG20v5 u | .objG20v6 u => objProblem u
  | .objG30v1 u | .objG30v2 u | .objG30v3 u | .objG30v4 u | .objG30v5 u | .objG30v6 u => objProblem u
  | .objG40v1 u | .objG40v2 u | .objG40v3 u | .objG40v4 u => objProblem u
  | .objG41v1 u | .objG41v2 u | .objG41v3 u | .objG41v4 u => objProblem u
  | .objOther g v u => (otherProblem (Machine.lookupObj g v).isSome).or (objProblem u)

/-- The instruction is one the spec's operand types admit. -/
abbrev Instr.WellFormed (i : Instr) : Prop := i.problem = none

end Sys2Proof
end

