-- ==== Sys2Proof/Decode.lean ====
section
/-! DEFINITION. The decoder of issued words, total on every word and rejecting by name, and after it the encoder. A command
is decoded by its code alone: the 15 codes of spec/30_encoding.md R47 select an operation and every other code is the
illegal command of R48, so no code byte is without a meaning. A wire item is decoded by its table row: format and code
bytes as spec/opcode_table.json gives them. -/

namespace Sys2Proof

open Machine

/-- The command a code selects (R46 to R48), with its named operands. -/
def decodeOp (op : Byte) (a : Args) : Instr :=
  if op = 0x00 then .crcClr
  else if op = 0x01 then .crcUpd a.b
  else if op = 0x02 then .crcRd
  else if op = 0x03 then .crcCalc
  else if op = 0x04 then .crcChk
  else if op = 0x10 then .linkEnc ⟨a.control, a.dest, a.src⟩
  else if op = 0x11 then .linkDec
  else if op = 0x20 then .tpSeg a.seg
  else if op = 0x21 then .tpRx
  else if op = 0x22 then .tpRst
  else if op = 0x30 then .appEncRead ⟨a.con, a.seq, a.reqBlocks⟩
  else if op = 0x31 then .appEncWrite a.func ⟨a.con, a.seq, a.dataBlocks⟩
  else if op = 0x32 then .appEncConfirm ⟨a.seq, a.uns⟩
  else if op = 0x33 then .appEncResp ⟨⟨a.fir, a.fin, a.con, a.uns, a.seq⟩, a.iin1, a.iin2, a.dataBlocks⟩
  else if op = 0x34 then .appDec
  else .illegal op

/-- The operands of APP.ENC.RESP under a given control byte and indication bytes. -/
def respOperands (apc iin1 iin2 : Byte) (a : Args) : RespArgs := ⟨apcBits apc, iin1, iin2, a.dataBlocks⟩

/-- A link header item (R49): 10 bytes in wire order. Of an item to build only the operands of LINK.ENC are read (log entry
16). -/
def decodeLnk (c : Bytes) (a : Args) : Instr :=
  match a.dir with
  | .build => .lnk (.build ⟨byteAt c 3, word16At c 4, word16At c 6⟩)
  | .parse => .lnk (.parse ⟨byteAt c 0, byteAt c 1, byteAt c 2, byteAt c 3, word16At c 4, word16At c 6, word16At c 8, a.tail⟩)

/-- A data block item (R50): the payload bytes, then the 2 bytes of the block CRC. -/
def decodeBlk (c : Bytes) (a : Args) : Instr :=
  let k := c.length - 2
  match a.dir with
  | .build => .blk (.build ⟨⟨a.control, a.dest, a.src⟩, c.take k⟩)
  | .parse => .blk (.parse ⟨⟨a.control, a.dest, a.src⟩, c.take k, word16At c k⟩)

/-- A transport header item (R52). -/
def decodeTph (h : Byte) (a : Args) : Instr :=
  match a.dir with
  | .build => .tph (.build a.seg)
  | .parse => .tph (.parse ⟨tphFin h, tphFir h, tphSeq h, a.tail⟩)

/-- An application control item (R53). -/
def decodeApc (b : Byte) (a : Args) : Instr :=
  match a.dir with
  | .build => .apc (.build (respOperands b a.iin1 a.iin2 a))
  | .parse => .apc (.parse ⟨apcBits b, a.tail⟩)

/-- An internal-indication item (R55). -/
def decodeIin (iin1 iin2 : Byte) (a : Args) : Instr :=
  match a.dir with
  | .build => .iin (.build (respOperands a.apc iin1 iin2 a))
  | .parse => .iin (.parse ⟨a.apc, iin1, iin2, a.tail⟩)

/-- The operands of a write-class request. -/
def writeOperands (a : Args) : WriteArgs := ⟨a.con, a.seq, a.dataBlocks⟩

/-- A use of a function code: BUILD with the given operands, or PARSE inside the fragment of the named fields. -/
def fcUse {α : Type} (build : α) (a : Args) : Use α FcParse :=
  match a.dir with
  | .build => .build build
  | .parse => .parse ⟨a.apc, a.tail⟩

/-- A function code item (R54, R190 to R197). -/
def decodeFc (fc : Byte) (a : Args) : Instr :=
  if fc = 0x00 then .fcConfirm (fcUse ⟨a.seq, a.uns⟩ a)
  else if fc = 0x01 then .fcRead (fcUse ⟨a.con, a.seq, a.reqBlocks⟩ a)
  else if fc = 0x02 then .fcWrite (fcUse (writeOperands a) a)
  else if fc = 0x03 then .fcSelect (fcUse (writeOperands a) a)
  else if fc = 0x04 then .fcOperate (fcUse (writeOperands a) a)
  else if fc = 0x05 then .fcDirectOperate (fcUse (writeOperands a) a)
  else if fc = 0x81 then .fcResponse (fcUse ⟨⟨a.fir, a.fin, a.con, a.uns, a.seq⟩, a.iin1, a.iin2, a.dataBlocks⟩ a)
  else .fcOther fc (fcUse (writeOperands a) a)

/-- What surrounds a qualifier item to parse. -/
def qualParse (a : Args) : QualParse := ⟨⟨a.apc, a.iin1, a.iin2⟩, a.group, a.variation, a.tail⟩

/-- The request block a qualifier item is built for. -/
def qualBuild (a : Args) : QualBuild := ⟨a.con, a.seq, a.group, a.variation⟩

/-- A use of a qualifier code. -/
def qualUse {α : Type} (build : α) (a : Args) : Use α QualParse :=
  match a.dir with
  | .build => .build build
  | .parse => .parse (qualParse a)

/-- A qualifier item (R57, R185 to R188); every other code is R148's. DESIGN CHOICE (log entry 16): the operand fields `start`
and `stop` are 16 bits wide, and a RANGE8 item to build, whose bounds are u8, takes the low byte of each. -/
def decodeQual (q : Byte) (a : Args) : Instr :=
  if q = 0x00 then .qualRange8 (qualUse ⟨qualBuild a, a.start.setWidth 8, a.stop.setWidth 8⟩ a)
  else if q = 0x01 then .qualRange16 (qualUse ⟨qualBuild a, a.start, a.stop⟩ a)
  else if q = 0x06 then .qualAll (qualUse (qualBuild a) a)
  else if q = 0x28 then .qualCountIndex16 (qualUse ⟨qualBuild a, a.idx⟩ a)
  else .qualOther q (qualParse a)

/-- A use of an object row; the third code byte is the qualifier of a parsed block, and a built block's qualifier follows
from its form (R138). -/
def objUse (q : Byte) (a : Args) : ObjUse :=
  match a.dir with
  | .build => .build ⟨a.con, a.seq, a.func, a.form, a.points⟩
  | .parse => .parse ⟨⟨a.apc, a.iin1, a.iin2⟩, q, a.tail⟩

/-- An object header item: group, variation (R60, R160 to R181); every other pair is R147's. -/
def decodeObj (g v : Byte) (u : ObjUse) : Instr :=
  if g = 1 ∧ v = 1 then .objG1v1 u
  else if g = 1 ∧ v = 2 then .objG1v2 u
  else if g = 10 ∧ v = 1 then .objG10v1 u
  else if g = 10 ∧ v = 2 then .objG10v2 u
  else if g = 20 ∧ v = 1 then .objG20v1 u
  else if g = 20 ∧ v = 2 then .objG20v2 u
  else if g = 20 ∧ v = 5 then .objG20v5 u
  else if g = 20 ∧ v = 6 then .objG20v6 u
  else if g = 30 ∧ v = 1 then .objG30v1 u
  else if g = 30 ∧ v = 2 then .objG30v2 u
  else if g = 30 ∧ v = 3 then .objG30v3 u
  else if g = 30 ∧ v = 4 then .objG30v4 u
  else if g = 30 ∧ v = 5 then .objG30v5 u
  else if g = 30 ∧ v = 6 then .objG30v6 u
  else if g = 40 ∧ v = 1 then .objG40v1 u
  else if g = 40 ∧ v = 2 then .objG40v2 u
  else if g = 40 ∧ v = 3 then .objG40v3 u
  else if g = 40 ∧ v = 4 then .objG40v4 u
  else if g = 41 ∧ v = 1 then .objG41v1 u
  else if g = 41 ∧ v = 2 then .objG41v2 u
  else if g = 41 ∧ v = 3 then .objG41v3 u
  else if g = 41 ∧ v = 4 then .objG41v4 u
  else .objOther g v u

/-- The instruction of a word by format and code bytes, before the operands are checked. -/
def decodeFormat (w : Issue) : Except DecodeError Instr :=
  match w.format, w.code with
  | .op, [op] => .ok (decodeOp op w.args)
  | .lnk, c => if c.length = cfg.headerLen then .ok (decodeLnk c w.args) else .error .codeLength
  | .blk, c => if 2 ≤ c.length then .ok (decodeBlk c w.args) else .error .codeLength
  | .tph, [h] => .ok (decodeTph h w.args)
  | .apc, [b] => .ok (decodeApc b w.args)
  | .iin, [b1, b2] => .ok (decodeIin b1 b2 w.args)
  | .fc, [c] => .ok (decodeFc c w.args)
  | .qual, [q] => .ok (decodeQual q w.args)
  | .obj, [g, v, q] => .ok (decodeObj g v (objUse q w.args))
  | _, _ => .error .codeLength

/-- The decoder: the instruction a word stands for, or by name why it stands for none. What it answers is well formed. -/
def decode (w : Issue) : Except DecodeError Instr :=
  match decodeFormat w with
  | .error e => .error e
  | .ok i =>
    match i.problem with
    | none => .ok i
    | some e => .error e

/-- The 10 bytes of a link header (R49). -/
def lnkBytes (p : LnkParse) : Bytes :=
  [p.start0, p.start1, p.length, p.control] ++ le16 p.dest ++ le16 p.src ++ le16 p.hcrc

/-- A command's word: its code (R47) and its operands. -/
def opWord (op : Byte) (a : Args) : Issue := ⟨.op, [op], a⟩

/-- The named fields of APP.ENC.RESP's operands but for control bits and indications that stand elsewhere. -/
def respArgs (a : RespArgs) : Args :=
  { fir := a.ctrl.fir, fin := a.ctrl.fin, con := a.ctrl.con, uns := a.ctrl.uns, seq := a.ctrl.seq,
    iin1 := a.iin1, iin2 := a.iin2, dataBlocks := a.blocks }

/-- The named fields of a write-class encoder's operands. -/
def writeArgs (a : WriteArgs) : Args := { con := a.con, seq := a.seq, dataBlocks := a.blocks }

/-- The named fields of APP.ENC.READ's operands. -/
def readArgs (a : ReadArgs) : Args := { con := a.con, seq := a.seq, reqBlocks := a.blocks }

/-- The named fields of APP.ENC.CONFIRM's operands. -/
def confirmArgs (a : ConfirmArgs) : Args := { seq := a.seq, uns := a.uns }

/-- The word of a function code item. -/
def fcWord {α : Type} (fc : Byte) (args : α → Args) : Use α FcParse → Issue
  | .build a => ⟨.fc, [fc], { args a with dir := .build }⟩
  | .parse p => ⟨.fc, [fc], { apc := p.apc, tail := p.tail }⟩

/-- The named fields of a parsed qualifier's surroundings. -/
def qualParseArgs (p : QualParse) : Args :=
  { apc := p.ctx.apc, iin1 := p.ctx.iin1, iin2 := p.ctx.iin2, group := p.group, variation := p.variation, tail := p.tail }

/-- The named fields of a built qualifier's request block. -/
def qualBuildArgs (b : QualBuild) : Args :=
  { dir := .build, con := b.con, seq := b.seq, group := b.group, variation := b.variation }

/-- The word of a qualifier item. -/
def qualWord {α : Type} (q : Byte) (args : α → Args) : Use α QualParse → Issue
  | .build b => ⟨.qual, [q], args b⟩
  | .parse p => ⟨.qual, [q], qualParseArgs p⟩

/-- The word of an object header item. A built item has no qualifier of its own, so its third byte is 0. -/
def objWord (g v : Byte) : ObjUse → Issue
  | .build b => ⟨.obj, [g, v, 0], { dir := .build, con := b.con, seq := b.seq, func := b.func, form := b.form, points := b.points }⟩
  | .parse p => ⟨.obj, [g, v, p.qualifier], { apc := p.ctx.apc, iin1 := p.ctx.iin1, iin2 := p.ctx.iin2, tail := p.tail }⟩

/-- The encoder: the word of an instruction. The bits of a built item that the encoder of the block computes (the length and
the CRC of a header, a block's CRC) are 0 in its word. -/
def encode : Instr → Issue
  | .crcClr => opWord 0x00 {}
  | .crcUpd b => opWord 0x01 { b := b }
  | .crcRd => opWord 0x02 {}
  | .crcCalc => opWord 0x03 {}
  | .crcChk => opWord 0x04 {}
  | .linkEnc a => opWord 0x10 { control := a.control, dest := a.dest, src := a.src }
  | .linkDec => opWord 0x11 {}
  | .tpSeg seg => opWord 0x20 { seg := seg }
  | .tpRx => opWord 0x21 {}
  | .tpRst => opWord 0x22 {}
  | .appEncRead a => opWord 0x30 (readArgs a)
  | .appEncWrite func a => opWord 0x31 { writeArgs a with func := func }
  | .appEncConfirm a => opWord 0x32 (confirmArgs a)
  | .appEncResp a => opWord 0x33 (respArgs a)
  | .appDec => opWord 0x34 {}
  | .illegal op => opWord op {}
  | .lnk (.build a) => ⟨.lnk, lnkBytes ⟨cfg.start0, cfg.start1, 0, a.control, a.dest, a.src, 0, []⟩, { dir := .build }⟩
  | .lnk (.parse p) => ⟨.lnk, lnkBytes p, { tail := p.tail }⟩
  | .blk (.build b) =>
    ⟨.blk, b.payload ++ le16 0, { dir := .build, control := b.addr.control, dest := b.addr.dest, src := b.addr.src }⟩
  | .blk (.parse p) => ⟨.blk, p.payload ++ le16 p.bcrc, { control := p.addr.control, dest := p.addr.dest, src := p.addr.src }⟩
  | .tph (.build seg) => ⟨.tph, [0], { dir := .build, seg := seg }⟩
  | .tph (.parse p) => ⟨.tph, [tphByte p.fin p.fir p.seq], { tail := p.data }⟩
  | .apc (.build a) =>
    ⟨.apc, [apcByte a.ctrl], { dir := .build, iin1 := a.iin1, iin2 := a.iin2, dataBlocks := a.blocks }⟩
  | .apc (.parse p) => ⟨.apc, [apcByte p.ctrl], { tail := p.tail }⟩
  | .iin (.build a) => ⟨.iin, [a.iin1, a.iin2], { dir := .build, apc := apcByte a.ctrl, dataBlocks := a.blocks }⟩
  | .iin (.parse p) => ⟨.iin, [p.iin1, p.iin2], { apc := p.apc, tail := p.tail }⟩
  | .fcConfirm u => fcWord 0x00 confirmArgs u
  | .fcRead u => fcWord 0x01 readArgs u
  | .fcWrite u => fcWord 0x02 writeArgs u
  | .fcSelect u => fcWord 0x03 writeArgs u
  | .fcOperate u => fcWord 0x04 writeArgs u
  | .fcDirectOperate u => fcWord 0x05 writeArgs u
  | .fcResponse u => fcWord 0x81 respArgs u
  | .fcOther c u => fcWord c writeArgs u
  | .qualRange8 u =>
    qualWord 0x00 (fun b => { qualBuildArgs b.block with start := b.start.setWidth 16, stop := b.stop.setWidth 16 }) u
  | .qualRange16 u => qualWord 0x01 (fun b => { qualBuildArgs b.block with start := b.start, stop := b.stop }) u
  | .qualAll u => qualWord 0x06 qualBuildArgs u
  | .qualCountIndex16 u => qualWord 0x28 (fun b => { qualBuildArgs b.block with idx := b.idx }) u
  | .qualOther q p => ⟨.qual, [q], qualParseArgs p⟩
  | .objG1v1 u => objWord 1 1 u
  | .objG1v2 u => objWord 1 2 u
  | .objG10v1 u => objWord 10 1 u
  | .objG10v2 u => objWord 10 2 u
  | .objG20v1 u => objWord 20 1 u
  | .objG20v2 u => objWord 20 2 u
  | .objG20v5 u => objWord 20 5 u
  | .objG20v6 u => objWord 20 6 u
  | .objG30v1 u => objWord 30 1 u
  | .objG30v2 u => objWord 30 2 u
  | .objG30v3 u => objWord 30 3 u
  | .objG30v4 u => objWord 30 4 u
  | .objG30v5 u => objWord 30 5 u
  | .objG30v6 u => objWord 30 6 u
  | .objG40v1 u => objWord 40 1 u
  | .objG40v2 u => objWord 40 2 u
  | .objG40v3 u => objWord 40 3 u
  | .objG40v4 u => objWord 40 4 u
  | .objG41v1 u => objWord 41 1 u
  | .objG41v2 u => objWord 41 2 u
  | .objG41v3 u => objWord 41 3 u
  | .objG41v4 u => objWord 41 4 u
  | .objOther g v u => objWord g v u

/-- The format of a one-byte word of the table: that of the first row of the table whose fixed bits it has (command codes
R47, function codes R54, qualifiers R57, in the table's order). A byte that no row of fixed bits has is a command code
(R48). -/
def byteFormat (b : Byte) : Format :=
  if opCodes.contains b then .op
  else if functionCodes.contains b then .fc
  else if qualifierCodes.contains b then .qual
  else .op

/-- The format a word of the table of `nbits` bits is laid out in, and its code bytes, with every operand field 0. The table
numbers one-byte rows by their byte, and rows of more bytes with the first byte of the wire in the most significant
place (`0x1E02` is group 0x1E, variation 0x02; `(group << 8) OR variation`, R147). The table gives some function codes and
qualifiers the same 8 bits as commands: such a byte is read as the row that stands first, the command (log entry 3). An
object row is given 16 bits, so its qualifier, the bits above them, is 0. -/
def tableIssue (nbits w : Nat) : Option Issue :=
  if nbits ≤ 8 then some ⟨byteFormat (BitVec.ofNat 8 w), [BitVec.ofNat 8 w], {}⟩
  else if nbits ≤ 24 then
    some ⟨.obj, [BitVec.ofNat 8 (w / 256), BitVec.ofNat 8 w, BitVec.ofNat 8 (w / 65536)], {}⟩
  else if nbits = 80 then
    some ⟨.lnk, (List.range 10).map (fun k => BitVec.ofNat 8 (w / 256 ^ (9 - k))), {}⟩
  else none

/-- The instruction the decoder reads from a word of the opcode table. -/
def decodeTableWord (nbits w : Nat) : Option Instr :=
  match tableIssue nbits w with
  | none => none
  | some x =>
    match decode x with
    | .ok i => some i
    | .error _ => none

end Sys2Proof
end

