-- ==== Sys2Proof/Machine/Ops.lean ====
section
/-! DEFINITION. The named operations over the state: the RXB memory, the single writes of registers and buffers, how an
operation ends (`done` and `fail`, spec/60_exceptions.md R205: the block's form of taking an exception, from which there
is no return, R207), and the host's port. -/

namespace Sys2Proof.Machine

/-! ### The RXB memory (spec/20_memory.md R32, R33) -/

/-- The byte at an offset, none where nothing has written one. -/
def Memory.read (m : Memory) (a : Nat) : Option Byte := (m.find? (fun c => c.1 == a)).map (·.2)

/-- One byte written, in the canonical form. -/
def Memory.write : Memory → Nat → Byte → Memory
  | [], a, b => [(a, b)]
  | c :: m, a, b =>
    if a < c.1 then (a, b) :: c :: m
    else if a = c.1 then (a, b) :: m
    else c :: Memory.write m a b

/-- `MemRead(RXB, off, n)`: `n` bytes from `off`, none where one of them was never written. -/
def Memory.readBytes (m : Memory) : Nat → Nat → Option Bytes
  | _, 0 => some []
  | off, n + 1 =>
    match m.read off, Memory.readBytes m (off + 1) n with
    | some b, some bs => some (b :: bs)
    | _, _ => none

/-- `MemWrite(RXB, off, len(s), s)`. -/
def Memory.writeBytes : Memory → Nat → Bytes → Memory
  | m, _, [] => m
  | m, off, b :: bs => Memory.writeBytes (m.write off b) (off + 1) bs

/-- The canonical form: offsets strictly rising. (No listed byte equals what an unlisted offset reads as, since that has no
value.) -/
abbrev Memory.wf (m : Memory) : Prop := m.Pairwise (fun x y => x.1 < y.1)

/-! ### Single writes of the state -/

/-- `CRC_ACC <- v`. -/
def State.setCrcAcc (v : U16) (s : State) : State := { s with crcAcc := v }

/-- `TX_SEQ <- v`. -/
def State.setTxSeq (v : BitVec 6) (s : State) : State := { s with txSeq := v }

/-- `RX_ACTIVE <- active; RX_LEN <- len`. -/
def State.setRx (active : Bool) (len : BitVec 13) (s : State) : State := { s with rxActive := active, rxLen := len }

/-- `RX_EXPECT <- v`. -/
def State.setRxExpect (v : BitVec 6) (s : State) : State := { s with rxExpect := v }

/-- RXB as a memory operation left it. -/
def State.setRxBuf (m : Memory) (s : State) : State := { s with rxBuf := m }

/-- `FLAGS.STALE <- v`. -/
def State.setStale (v : Bool) (s : State) : State := { s with stale := v }

/-- IN as the host leaves it. -/
def State.setIn (bs : Bytes) (s : State) : State := { s with inBuf := bs }

/-- OUT emptied and then given one `emit(bs)` (R33). -/
def State.setOut (bs : Bytes) (s : State) : State := { s with outBuf := bs }

/-- PTS emptied and then given the records. -/
def State.setPts (ps : List PointRec) (s : State) : State := { s with pts := ps }

/-- The port after the host's next act was taken. -/
def State.setPort (p : List HostAct) (s : State) : State := { s with port := p }

/-- `npts` (spec/43_application.md R145, R152): the length of PTS. -/
def State.npts (s : State) : Nat := s.pts.length

/-- The `FLAGS` register as the host reads it (spec/10_state.md R17): STALE at bit 0. -/
def State.flags (s : State) : BitVec 1 := BitVec.ofBool s.stale

/-! ### How an operation ends (spec/60_exceptions.md R201, R205) -/

/-- The status codes of the non-errors (R201). -/
def Done.code : Done → Byte
  | .ok => 0x00
  | .pending => 0x01
  | .linkOnly => 0x02

/-- The status codes of the errors (R201). -/
def Err.code : Err → Byte
  | .truncated => 0x10
  | .badStart => 0x11
  | .badHeaderCrc => 0x12
  | .badBlockCrc => 0x13
  | .badLength => 0x14
  | .payloadTooLong => 0x15
  | .sequenceMismatch => 0x20
  | .noFir => 0x21
  | .overflow => 0x22
  | .badSegSize => 0x23
  | .unknownObject => 0x30
  | .truncatedObject => 0x31
  | .badQualifier => 0x32
  | .unexpectedFunction => 0x33
  | .encUnknownObject => 0x38
  | .encBadForm => 0x39
  | .encTooLong => 0x3A
  | .illegalOp => 0xFF

/-- Every code STATUS ever holds (R201). -/
def statusCodes : List Byte :=
  [0x00, 0x01, 0x02, 0x10, 0x11, 0x12, 0x13, 0x14, 0x15, 0x20, 0x21, 0x22, 0x23,
   0x30, 0x31, 0x32, 0x33, 0x38, 0x39, 0x3A, 0xFF]

/-- `done S`, with the operation's named results (R205). -/
def State.finish (d : Done) (r : Results) (s : State) : State :=
  { s with status := d.code, errOffset := 0, errExpected := 0, errActual := 0, results := r }

/-- `fail E(offset, expected, actual)` (R205): the one operation by which every error is taken. `r` is `none` for every
operation but LINK.DEC. The buffers R205 empties are emptied by the operation before it fails (`State.setOut []`,
`State.setPts []`), since each operation empties a different one. -/
def State.failWith (f : Fail) (r : Results) (s : State) : State :=
  { s with
    status := f.err.code
    errOffset := BitVec.ofNat 16 f.offset
    errExpected := BitVec.ofNat 16 f.expected
    errActual := BitVec.ofNat 16 f.actual
    results := r }

/-! ### The host's port (R39, R40) -/

/-- What the machine finds at the port. -/
inductive Fetched where
  | idle
  | wrote (s : State)
  | run (i : Instr) (s : State)
  | stop (r : Refusal)

/-- The host's next act: nothing (the block holds its state, spec/60_exceptions.md R215); IN written, within its capacity; or
a word, decoded, with the state its instruction runs on. -/
def fetch (s : State) : Fetched :=
  match s.port with
  | [] => .idle
  | .writeIn bs :: rest =>
    if bs.length ≤ cfg.apduMax then .wrote ((s.setPort rest).setIn bs) else .stop .inOverCapacity
  | .issue w :: rest =>
    match decode w with
    | .ok i => .run i (s.setPort rest)
    | .error e => .stop (.undecodable e)

/-- A word put before the host's other acts. -/
def State.issueFirst (w : Issue) (s : State) : State := s.setPort (.issue w :: s.port)

end Sys2Proof.Machine
end

