-- ==== Sys2Proof/Machine/AppDec.lean ====
section
/-! DEFINITION. The decoder of the Application unit, APP.DEC (spec/43_application.md R145 to R153). `pos` is the cursor of
spec/10_state.md R21: it is local to the operation. -/

namespace Sys2Proof.Machine

/-- The fragment header (R146): its results and the offset of the first object block. -/
def decHeader (f : Bytes) : Except Fail (AppHeader × Nat) :=
  let n := f.length
  if n < 2 then .error ⟨.truncatedObject, n, 2, n⟩
  else
    let ctrl := apcBits (byteAt f 0)
    let func := byteAt f 1
    if func = cfg.fcResponse then
      if n < 4 then .error ⟨.truncatedObject, 2, 2, n - 2⟩
      else .ok (⟨ctrl, func, .response, true, byteAt f 2, byteAt f 3, iinWord (byteAt f 2) (byteAt f 3)⟩, 4)
    else if func = cfg.fcConfirm then .ok (⟨ctrl, func, .confirm, false, 0, 0, 0⟩, 2)
    else .error ⟨.unexpectedFunction, 1, cfg.fcResponse.toNat, func.toNat⟩

/-- What a range field says (R148): the first index, the number of points, the bytes of the index before each point. -/
structure RangeField where
  start    : Nat
  count    : Nat
  idxBytes : Nat
deriving DecidableEq, Repr

/-- A start and stop pair read at `pos` (R148). -/
def startStop (pos start stop : Nat) : Except Fail RangeField :=
  if stop < start then .error ⟨.badQualifier, pos, start, stop⟩ else .ok ⟨start, stop - start + 1, 0⟩

/-- The qualifier `q` and the range field at `pos` (R148), with the offset after it. The qualifier stands at `pos - 1`. -/
def decRange (q : Byte) (f : Bytes) (pos : Nat) : Except Fail (RangeField × Nat) :=
  let left := f.length - pos
  if q = cfg.qualRange8 then
    if left < 2 then .error ⟨.truncatedObject, pos, 2, left⟩
    else
      match startStop pos (byteAt f pos).toNat (byteAt f (pos + 1)).toNat with
      | .error e => .error e
      | .ok r => .ok (r, pos + 2)
  else if q = cfg.qualRange16 then
    if left < 4 then .error ⟨.truncatedObject, pos, 4, left⟩
    else
      match startStop pos (rdLe f pos 2) (rdLe f (pos + 2) 2) with
      | .error e => .error e
      | .ok r => .ok (r, pos + 4)
  else if q = cfg.qualCountIndex16 then
    if left < 2 then .error ⟨.truncatedObject, pos, 2, left⟩
    else .ok (⟨0, rdLe f pos 2, 2⟩, pos + 2)
  else .error ⟨.badQualifier, pos - 1, 0, q.toNat⟩

/-- The points of a block that is not PACKED (R149): `k` more points, the next of them point `i`, at `pos`. -/
def decPoints (d : Descriptor) (g v : Byte) (r : RangeField) (f : Bytes) :
    Nat → Nat → Nat → Except Fail (List PointRec × Nat)
  | 0, _, pos => .ok ([], pos)
  | k + 1, i, pos =>
    let need := r.idxBytes + pointSize d
    if f.length - pos < need then .error ⟨.truncatedObject, pos, need, f.length - pos⟩
    else
      let index := if r.idxBytes = 2 then rdLe f pos 2 else r.start + i
      match decPoints d g v r f k (i + 1) (pos + need) with
      | .error e => .error e
      | .ok (ps, pos') => .ok (decPoint d g v (BitVec.ofNat 16 index) f (pos + r.idxBytes) :: ps, pos')

/-- The data area of a block at `pos` (R149), with the offset after it. -/
def decData (d : Descriptor) (g v : Byte) (r : RangeField) (f : Bytes) (pos : Nat) :
    Except Fail (List PointRec × Nat) :=
  if d.kind = .packed then
    let nb := ceilDiv r.count 8
    if f.length - pos < nb then .error ⟨.truncatedObject, pos, min nb 65535, f.length - pos⟩
    else .ok ((List.range r.count).map (decPacked d g v r.start f pos), pos + nb)
  else decPoints d g v r f r.count 0 pos

/-- One object block at `hoff` (R147): its records and the offset after it. -/
def decBlock (f : Bytes) (hoff : Nat) : Except Fail (List PointRec × Nat) :=
  if f.length - hoff < 3 then .error ⟨.truncatedObject, hoff, 3, f.length - hoff⟩
  else
    let g := byteAt f hoff
    let v := byteAt f (hoff + 1)
    let q := byteAt f (hoff + 2)
    match lookupObj g v with
    | none => .error ⟨.unknownObject, hoff, 0, g.toNat * 256 + v.toNat⟩
    | some d =>
      match decRange q f (hoff + 3) with
      | .error e => .error e
      | .ok (r, pos) =>
        if d.kind = .packed ∧ r.idxBytes ≠ 0 then .error ⟨.badQualifier, hoff + 2, 0, q.toNat⟩
        else decData d g v r f pos

/-- The object loop (R147) from `pos`. Every turn moves `pos` forward by at least 3 (R155), so `fuel` of the fragment's length
never runs out. -/
def decObjects (f : Bytes) : Nat → Nat → Except Fail (List PointRec)
  | 0, _ => .ok []
  | fuel + 1, pos =>
    if pos < f.length then
      match decBlock f pos with
      | .error e => .error e
      | .ok (ps, pos') =>
        match decObjects f fuel pos' with
        | .error e => .error e
        | .ok rest => .ok (ps ++ rest)
    else .ok []

/-- A whole fragment: header results and records, or the first error of the scan (R145, R152). -/
def decFragment (f : Bytes) : Except Fail (AppHeader × List PointRec) :=
  match decHeader f with
  | .error e => .error e
  | .ok (h, pos) =>
    match decObjects f f.length pos with
    | .error e => .error e
    | .ok ps => .ok (h, ps)

/-- APP.DEC's work (R145) on IN. It leaves OUT as it was (R205). -/
def appDecode (s : State) : Result :=
  match decFragment s.inBuf with
  | .error f => .next ((s.setPts []).failWith f .none)
  | .ok (h, ps) => .next ((s.setPts ps).finish .ok (.fragment h))

/-- APP.DEC (R145). -/
def execAppDec (s : State) : Result := appDecode s

end Sys2Proof.Machine
end

