-- ==== Sys2Proof/Machine/AppEnc.lean ====
section
/-! DEFINITION. The encoders of the Application unit (spec/43_application.md R137 to R144). -/

namespace Sys2Proof.Machine

/-- `min(n, 65535)`, as R202 cuts what may pass 16 bits. -/
def cut16 (n : Nat) : Nat := min n 65535

/-- The check of a RANGE form (R141, R142) of block `j`. -/
def rangeFail (j : Nat) : Form → Option Fail
  | .range start stop => if stop.toNat < start.toNat then some ⟨.encBadForm, j, start.toNat, stop.toNat⟩ else none
  | .index _ => none
  | .all => none

/-- The first failing request block, from position `j` on (R141). -/
def checkReqBlocks : Nat → List ReqBlock → Option Fail
  | _, [] => none
  | j, b :: bs =>
    match rangeFail j b.form with
    | some f => some f
    | none => checkReqBlocks (j + 1) bs

/-- A request block's bytes (R141): its header, and the indices of an INDEX form. -/
def encReqBlock (b : ReqBlock) : Bytes :=
  encHeader b.group b.variation b.form ++
    match b.form with
    | .index idx => idx.flatMap le16
    | .range _ _ => []
    | .all => []

/-- The checks of data block `j` after its descriptor is found, in the order of R142. -/
def dataFormFail (j : Nat) (d : Descriptor) (b : DataBlock) : Option Fail :=
  if b.form = .all then some ⟨.encBadForm, j, 0, cfg.qualAll.toNat⟩
  else
    match rangeFail j b.form with
    | some f => some f
    | none =>
      if d.kind = .packed ∧ formIsIndex b.form then
        some ⟨.encBadForm, j, 0, cfg.qualCountIndex16.toNat⟩
      else if b.points.length ≠ formCount b.form then
        some ⟨.encBadForm, j, cut16 (formCount b.form), cut16 b.points.length⟩
      else none

/-- The checks of data block `j` (R142): the object table first. -/
def dataBlockFail (j : Nat) (b : DataBlock) : Option Fail :=
  match lookupObj b.group b.variation with
  | none => some ⟨.encUnknownObject, j, 0, b.group.toNat * 256 + b.variation.toNat⟩
  | some d => dataFormFail j d b

/-- The first failing data block, from position `j` on (R142). -/
def checkDataBlocks : Nat → List DataBlock → Option Fail
  | _, [] => none
  | j, b :: bs =>
    match dataBlockFail j b with
    | some f => some f
    | none => checkDataBlocks (j + 1) bs

/-- A data block's bytes (R142): its header and its data area. -/
def encDataBlock (b : DataBlock) : Bytes :=
  match lookupObj b.group b.variation with
  | none => []
  | some d => encHeader b.group b.variation b.form ++ encData d b.form b.points

/-- The end of every encoder (R141, R142): a refused block, a fragment that is too long, or the fragment in OUT. -/
def emitFragment (bad : Option Fail) (fragment : Bytes) (s : State) : Result :=
  match bad with
  | some f => .next ((s.setOut []).failWith f .none)
  | none =>
    if fragment.length > cfg.apduMax then
      .next ((s.setOut []).failWith ⟨.encTooLong, 0, cfg.apduMax, cut16 fragment.length⟩ .none)
    else .next ((s.setOut fragment).finish .ok .none)

/-- APP.ENC.READ's work (R141). -/
def appRead (a : ReadArgs) (s : State) : Result :=
  emitFragment (checkReqBlocks 0 a.blocks) ([requestApc a.con a.seq, cfg.fcRead] ++ a.blocks.flatMap encReqBlock) s

/-- APP.ENC.WRITE's work (R142). -/
def appWrite (func : Byte) (a : WriteArgs) (s : State) : Result :=
  emitFragment (checkDataBlocks 0 a.blocks) ([requestApc a.con a.seq, func] ++ a.blocks.flatMap encDataBlock) s

/-- APP.ENC.CONFIRM's work (R143). -/
def appConfirm (a : ConfirmArgs) (s : State) : Result :=
  .next ((s.setOut [confirmApc a.uns a.seq, cfg.fcConfirm]).finish .ok .none)

/-- APP.ENC.RESP's work (R144). -/
def appRespond (a : RespArgs) (s : State) : Result :=
  emitFragment (checkDataBlocks 0 a.blocks)
    ([apcByte a.ctrl, cfg.fcResponse, a.iin1, a.iin2] ++ a.blocks.flatMap encDataBlock) s

/-- APP.ENC.READ (R141). -/
def execAppEncRead (a : ReadArgs) (s : State) : Result := appRead a s

/-- APP.ENC.WRITE (R142). -/
def execAppEncWrite (func : Byte) (a : WriteArgs) (s : State) : Result := appWrite func a s

/-- APP.ENC.CONFIRM (R143). -/
def execAppEncConfirm (a : ConfirmArgs) (s : State) : Result := appConfirm a s

/-- APP.ENC.RESP (R144). -/
def execAppEncResp (a : RespArgs) (s : State) : Result := appRespond a s

end Sys2Proof.Machine
end

