-- ==== Sys2Proof/Machine/Crc.lean ====
section
/-! DEFINITION. The CRC unit (spec/40_crc.md): the byte step, the function `crc16`, and the five operations. -/

namespace Sys2Proof.Machine

/-- One shift of the byte step (R80). -/
def crcBit (acc : U16) : U16 :=
  if acc.getLsbD 0 then (acc >>> 1) ^^^ cfg.crcPolyR else acc >>> 1

/-- `n` shifts. -/
def crcShifts : Nat → U16 → U16
  | 0, acc => acc
  | n + 1, acc => crcShifts n (crcBit acc)

/-- `crc_step(acc, b)` (R80). -/
def crcStep (acc : U16) (b : Byte) : U16 := crcShifts 8 (acc ^^^ b.setWidth 16)

/-- The register after the bytes of `s`, before the final XOR (R81). -/
def crcFold (acc : U16) (s : Bytes) : U16 := s.foldl crcStep acc

/-- `crc16(s)` (R81). -/
def crc16 (s : Bytes) : U16 := crcFold cfg.crcInit s ^^^ cfg.crcXorOut

/-- CRC.CLR (R83). -/
def execCrcClr (s : State) : Result := .next ((s.setCrcAcc cfg.crcInit).finish .ok .none)

/-- CRC.UPD (R84). -/
def execCrcUpd (b : Byte) (s : State) : Result := .next ((s.setCrcAcc (crcStep s.crcAcc b)).finish .ok .none)

/-- CRC.RD (R85). -/
def execCrcRd (s : State) : Result := .next (s.finish .ok (.crc (s.crcAcc ^^^ cfg.crcXorOut)))

/-- CRC.CALC (R86). -/
def execCrcCalc (s : State) : Result := .next (s.finish .ok (.crc (crc16 s.inBuf)))

/-- CRC.CHK (R87). A mismatch is a result and no error; the failing operation leaves OUT as it was (R205). -/
def execCrcChk (s : State) : Result :=
  let m := s.inBuf.length
  if m < 2 then .next (s.failWith ⟨.truncated, m, 2, m⟩ .none)
  else
    let computed := crc16 (s.inBuf.take (m - 2))
    let received := word16At s.inBuf (m - 2)
    .next (s.finish .ok (.check (computed == received) computed received))

end Sys2Proof.Machine
end

