-- ==== Sys2Proof/Machine/Link.lean ====
section
/-! DEFINITION. The Link unit (spec/41_link.md): frames built and parsed. -/

namespace Sys2Proof.Machine

/-- How many data blocks a payload of `n` bytes has: `ceil(n / 16)` (R50). -/
def blockCount (n : Nat) : Nat := ceilDiv n cfg.blockMax

/-- The length of the whole frame of a payload of `n` bytes (R51, R100). -/
def frameLength (n : Nat) : Nat := cfg.headerLen + n + 2 * blockCount n

/-- `hdr8`, the header before its CRC (R98). -/
def header8 (a : LinkAddr) (n : Nat) : Bytes :=
  [cfg.start0, cfg.start1, BitVec.ofNat 8 (cfg.lenBase + n), a.control] ++ le16 a.dest ++ le16 a.src

/-- The CRC of a header whose first 8 bytes are given: over the last `HDR_CRC_SPAN` of them (R99). -/
def headerCrc (hdr8 : Bytes) : U16 := crc16 (slice hdr8 (8 - cfg.hdrCrcSpan) cfg.hdrCrcSpan)

/-- The first `k` data blocks of a payload, each followed by its CRC (R50, R100). -/
def encBlocks : Nat → Bytes → Bytes
  | 0, _ => []
  | k + 1, p =>
    let b := p.take cfg.blockMax
    b ++ le16 (crc16 b) ++ encBlocks k (p.drop cfg.blockMax)

/-- The frame of a payload (R100). -/
def frame (a : LinkAddr) (p : Bytes) : Bytes :=
  header8 a p.length ++ le16 (headerCrc (header8 a p.length)) ++ encBlocks (blockCount p.length) p

/-- LINK.ENC's work (R101): the frame of IN's bytes. -/
def linkEncode (a : LinkAddr) (s : State) : Result :=
  let n := s.inBuf.length
  if n > cfg.linkPayloadMax then .next ((s.setOut []).failWith ⟨.payloadTooLong, 0, cfg.linkPayloadMax, n⟩ .none)
  else .next ((s.setOut (frame a s.inBuf)).finish .ok .none)

/-- Steps 1 to 5 of LINK.DEC (R102, R103): the error of the first failing check of the header and the frame's extent, in the
normative order, or the number of payload bytes. -/
def checkHeader (buf : Bytes) : Except Fail Nat :=
  let m := buf.length
  if 1 ≤ m ∧ byteAt buf 0 ≠ cfg.start0 then .error ⟨.badStart, 0, cfg.start0.toNat, (byteAt buf 0).toNat⟩
  else if 2 ≤ m ∧ byteAt buf 1 ≠ cfg.start1 then .error ⟨.badStart, 1, cfg.start1.toNat, (byteAt buf 1).toNat⟩
  else if m < cfg.headerLen then .error ⟨.truncated, m, cfg.headerLen, m⟩
  else if headerCrc (buf.take 8) ≠ word16At buf 8 then
    .error ⟨.badHeaderCrc, 8, (headerCrc (buf.take 8)).toNat, (word16At buf 8).toNat⟩
  else
    let length := (byteAt buf 2).toNat
    if length < cfg.lenBase then .error ⟨.badLength, 2, cfg.lenBase, length⟩
    else if m < frameLength (length - cfg.lenBase) then
      .error ⟨.truncated, m, frameLength (length - cfg.lenBase), m⟩
    else .ok (length - cfg.lenBase)

/-- Step 6 of LINK.DEC (R102): `k` data blocks of the `n` payload bytes still to come, from offset `pos` on; the payload, or
the error of the first block whose CRC fails. -/
def decBlocks (buf : Bytes) : Nat → Nat → Nat → Except Fail Bytes
  | 0, _, _ => .ok []
  | k + 1, n, pos =>
    let kb := min cfg.blockMax n
    let blk := slice buf pos kb
    if crc16 blk ≠ word16At buf (pos + kb) then
      .error ⟨.badBlockCrc, pos + kb, (crc16 blk).toNat, (word16At buf (pos + kb)).toNat⟩
    else
      match decBlocks buf k (n - kb) (pos + kb + 2) with
      | .error e => .error e
      | .ok bs => .ok (blk ++ bs)

/-- `consumed` on an error (R104); `total` is the extent of a frame whose header is believed. -/
def consumedOn (e : Err) (total : Nat) : Nat :=
  match e with
  | .truncated => 0
  | .badBlockCrc => total
  | _ => 1

/-- LINK.DEC's work (R102) on IN. -/
def linkDecode (s : State) : Result :=
  let buf := s.inBuf
  match checkHeader buf with
  | .error f => .next ((s.setOut []).failWith f (.dropped (BitVec.ofNat 16 (consumedOn f.err 0))))
  | .ok n =>
    match decBlocks buf (blockCount n) n cfg.headerLen with
    | .error f => .next ((s.setOut []).failWith f (.dropped (BitVec.ofNat 16 (consumedOn f.err (frameLength n)))))
    | .ok p =>
      .next ((s.setOut p).finish .ok
        (.link (byteAt buf 3) (word16At buf 4) (word16At buf 6) (BitVec.ofNat 16 (frameLength n))))

/-- LINK.ENC (R101). -/
def execLinkEnc (a : LinkAddr) (s : State) : Result := linkEncode a s

/-- LINK.DEC (R102). -/
def execLinkDec (s : State) : Result := linkDecode s

end Sys2Proof.Machine
end

