-- ==== Sys2Proof/Machine/Transport.lean ====
section
/-! DEFINITION. The Transport unit (spec/42_transport.md): segmentation, reassembly, the unit's reset. -/

namespace Sys2Proof.Machine

/-- How many segments a fragment of `n` bytes has: `max(1, ceil(n / seg))` (R116). -/
def segmentCount (n seg : Nat) : Nat := max 1 (ceilDiv n seg)

/-- `k` more segments of the bytes `a`, the first of them with the given FIR and sequence number (R116). -/
def segments (seg : Nat) : Nat → Bool → BitVec 6 → Bytes → List Bytes
  | 0, _, _, _ => []
  | k + 1, fir, q, a =>
    (tphByte (decide (k = 0)) fir q :: a.take seg) :: segments seg k false (q + 1) (a.drop seg)

/-- The layout of a segment list in OUT: each segment after one byte that holds its length (spec/20_memory.md R34). -/
def segmentLayout (segs : List Bytes) : Bytes := segs.flatMap (fun x => BitVec.ofNat 8 x.length :: x)

/-- TP.SEG's work (R116) on IN. -/
def tpSegment (seg : Byte) (s : State) : Result :=
  if seg.toNat < 1 ∨ seg.toNat > cfg.segMax then
    .next ((s.setOut []).failWith ⟨.badSegSize, 0, cfg.segMax, seg.toNat⟩ .none)
  else
    let nseg := segmentCount s.inBuf.length seg.toNat
    .next (((s.setOut (segmentLayout (segments seg.toNat nseg true s.txSeq s.inBuf))).setTxSeq
      (s.txSeq + BitVec.ofNat 6 nseg)).finish .ok (.segments (BitVec.ofNat 16 nseg)))

/-- The part of TP.RX after the FIR and sequence tests (R118): the bound of the buffer (R124), the payload appended (R120),
and the fragment delivered on FIN (R125). -/
def tpAccept (h : Byte) (data : Bytes) (s : State) : Result :=
  let t := s.rxLen.toNat + data.length
  if t > cfg.rxBufMax then .next ((s.setRx false 0).failWith ⟨.overflow, 0, cfg.rxBufMax, t⟩ .none)
  else
    let u := ((s.setRxBuf (s.rxBuf.writeBytes s.rxLen.toNat data)).setRx s.rxActive (BitVec.ofNat 13 t)).setRxExpect
      (tphSeq h + 1)
    if tphFin h then
      match u.rxBuf.readBytes 0 t with
      | none => .fault .rxbUnwritten
      | some bs => .next (((u.setOut bs).setRx false 0).finish .ok .none)
    else .next (u.finish .pending .none)

/-- TP.RX's work (R118) on IN. -/
def tpReceive (s : State) : Result :=
  match s.inBuf with
  | [] => .next (((s.setOut []).setStale false).finish .linkOnly .none)
  | h :: data =>
    let u := s.setOut []
    if tphFir h then tpAccept h data ((u.setStale s.rxActive).setRx true 0)
    else if s.rxActive = false then .next ((u.setStale false).failWith ⟨.noFir, 0, 0, h.toNat⟩ .none)
    else if tphSeq h ≠ s.rxExpect then
      .next (((u.setStale false).setRx false 0).failWith
        ⟨.sequenceMismatch, 0, s.rxExpect.toNat, (tphSeq h).toNat⟩ .none)
    else tpAccept h data (u.setStale false)

/-- TP.SEG (R116). -/
def execTpSeg (seg : Byte) (s : State) : Result := tpSegment seg s

/-- TP.RX (R118). -/
def execTpRx (s : State) : Result := tpReceive s

/-- TP.RST (R126). -/
def execTpRst (s : State) : Result :=
  .next (((((s.setTxSeq 0).setRx false 0).setRxExpect 0).setStale false).finish .ok .none)

end Sys2Proof.Machine
end

