-- ==== Sys2Proof/Machine/Wire.lean ====
section
/-! DEFINITION. The illegal command (spec/30_encoding.md R48) and the meanings of the table's rows that are wire formats and
code points (R49 to R64). Such a row is no command. Its instruction is one use of the item by the block, as the row's own
rule says it: BUILD runs the encoder that writes the item, PARSE writes into IN an operand that holds the item where its
format stands (R45, R136) and runs the decoder that reads it (log entry 2). -/

namespace Sys2Proof.Machine

/-- A command whose code selects no operation (R48): the result registers change, no buffer and no other register. -/
def execIllegal (op : Byte) (s : State) : Result := .next (s.failWith ⟨.illegalOp, 0, 0, op.toNat⟩ .none)

/-! ### LNK, BLK, TPH, APC, IIN -/

/-- LNK (R49): built by LINK.ENC over the payload in IN (R101), parsed by LINK.DEC from the header and the bytes after it
(R102). -/
def execLnk (u : Use LinkAddr LnkParse) (s : State) : Result :=
  match u with
  | .build a => linkEncode a s
  | .parse p => linkDecode (s.setIn (lnkBytes p ++ p.tail))

/-- A frame of one data block with the given block CRC under a good header (R50, R98, R99). -/
def oneBlockFrame (p : BlkParse) : Bytes :=
  header8 p.addr p.payload.length ++ le16 (headerCrc (header8 p.addr p.payload.length)) ++ p.payload ++ le16 p.bcrc

/-- BLK (R50): built by LINK.ENC from a payload of one block (R100), parsed by LINK.DEC as the one block of a frame. -/
def execBlk (u : Use BlkBuild BlkParse) (s : State) : Result :=
  match u with
  | .build b => linkEncode b.addr (s.setIn b.payload)
  | .parse p => linkDecode (s.setIn (oneBlockFrame p))

/-- TPH (R52): built by TP.SEG over the fragment in IN (R116), parsed by TP.RX as the first byte of a segment (R118). -/
def execTph (u : Use Byte TphParse) (s : State) : Result :=
  match u with
  | .build seg => tpSegment seg s
  | .parse p => tpReceive (s.setIn (tphByte p.fin p.fir p.seq :: p.data))

/-- APC (R53): built by APP.ENC.RESP, whose operands are all of its fields (R144), parsed by APP.DEC as the first byte of a
fragment (R146). -/
def execApc (u : Use RespArgs ApcParse) (s : State) : Result :=
  match u with
  | .build a => appRespond a s
  | .parse p => appDecode (s.setIn (apcByte p.ctrl :: p.tail))

/-- The first four bytes of a RESPONSE fragment (R136). -/
def responseHead (c : ObjCtx) : Bytes := [c.apc, cfg.fcResponse, c.iin1, c.iin2]

/-- IIN (R55): built by APP.ENC.RESP (R144), parsed by APP.DEC in a RESPONSE fragment (R146). -/
def execIin (u : Use RespArgs IinParse) (s : State) : Result :=
  match u with
  | .build a => appRespond a s
  | .parse p => appDecode (s.setIn (responseHead ⟨p.apc, p.iin1, p.iin2⟩ ++ p.tail))

/-! ### FC -/

/-- A function code parsed by APP.DEC as the second byte of a fragment (R146). -/
def parseFc (fc : Byte) (p : FcParse) (s : State) : Result := appDecode (s.setIn ([p.apc, fc] ++ p.tail))

/-- A write-class function code: built by APP.ENC.WRITE with `func` set to it, parsed by APP.DEC. -/
def useWriteFc (fc : Byte) (u : Use WriteArgs FcParse) (s : State) : Result :=
  match u with
  | .build a => appWrite fc a s
  | .parse p => parseFc fc p s

/-- FC.CONFIRM (spec/43_application.md R190). -/
def execFcConfirm (u : Use ConfirmArgs FcParse) (s : State) : Result :=
  match u with
  | .build a => appConfirm a s
  | .parse p => parseFc cfg.fcConfirm p s

/-- FC.READ (R191). -/
def execFcRead (u : Use ReadArgs FcParse) (s : State) : Result :=
  match u with
  | .build a => appRead a s
  | .parse p => parseFc cfg.fcRead p s

/-- FC.WRITE (R192). -/
def execFcWrite (u : Use WriteArgs FcParse) (s : State) : Result := useWriteFc cfg.fcWrite u s

/-- FC.SELECT (R193). -/
def execFcSelect (u : Use WriteArgs FcParse) (s : State) : Result := useWriteFc cfg.fcSelect u s

/-- FC.OPERATE (R194). -/
def execFcOperate (u : Use WriteArgs FcParse) (s : State) : Result := useWriteFc cfg.fcOperate u s

/-- FC.DIRECT_OPERATE (R195). -/
def execFcDirectOperate (u : Use WriteArgs FcParse) (s : State) : Result := useWriteFc cfg.fcDirectOperate u s

/-- FC.RESPONSE (R196). -/
def execFcResponse (u : Use RespArgs FcParse) (s : State) : Result :=
  match u with
  | .build a => appRespond a s
  | .parse p => parseFc cfg.fcResponse p s

/-- FC.(other) (R197): written without comment by APP.ENC.WRITE, refused by APP.DEC. -/
def execFcOther (code : Byte) (u : Use WriteArgs FcParse) (s : State) : Result := useWriteFc code u s

/-! ### QUAL -/

/-- A qualifier built: APP.ENC.READ of one request block of a form that takes it (R138, R141). -/
def buildQual (b : QualBuild) (form : Form) (s : State) : Result :=
  appRead ⟨b.con, b.seq, [⟨b.group, b.variation, form⟩]⟩ s

/-- A qualifier parsed by APP.DEC as the third byte of the first object block of a RESPONSE (R147, R148). -/
def parseQual (q : Byte) (p : QualParse) (s : State) : Result :=
  appDecode (s.setIn (responseHead p.ctx ++ [p.group, p.variation, q] ++ p.tail))

/-- QUAL.RANGE8 (R185). -/
def execQualRange8 (u : Use Range8Build QualParse) (s : State) : Result :=
  match u with
  | .build b => buildQual b.block (.range (b.start.setWidth 16) (b.stop.setWidth 16)) s
  | .parse p => parseQual cfg.qualRange8 p s

/-- QUAL.RANGE16 (R186). -/
def execQualRange16 (u : Use Range16Build QualParse) (s : State) : Result :=
  match u with
  | .build b => buildQual b.block (.range b.start b.stop) s
  | .parse p => parseQual cfg.qualRange16 p s

/-- QUAL.ALL (R187). -/
def execQualAll (u : Use QualBuild QualParse) (s : State) : Result :=
  match u with
  | .build b => buildQual b .all s
  | .parse p => parseQual cfg.qualAll p s

/-- QUAL.COUNT_INDEX16 (R188). -/
def execQualCountIndex16 (u : Use CountIndexBuild QualParse) (s : State) : Result :=
  match u with
  | .build b => buildQual b.block (.index b.idx) s
  | .parse p => parseQual cfg.qualCountIndex16 p s

/-- QUAL.(other) (R148): no encoder writes it, APP.DEC refuses it. -/
def execQualOther (q : Byte) (p : QualParse) (s : State) : Result := parseQual q p s

/-! ### OBJ -/

/-- An object row: built by APP.ENC.WRITE as a data block of its own (R139, R142), parsed by APP.DEC as the first object block
of a RESPONSE (R147 to R150). -/
def useObj (g v : Byte) (u : ObjUse) (s : State) : Result :=
  match u with
  | .build b => appWrite b.func ⟨b.con, b.seq, [⟨g, v, b.form, b.points⟩]⟩ s
  | .parse p => appDecode (s.setIn (responseHead p.ctx ++ [g, v, p.qualifier] ++ p.tail))

/-- OBJ.g1v1 (R160). -/
def execObjG1v1 (u : ObjUse) (s : State) : Result := useObj 1 1 u s

/-- OBJ.g1v2 (R161). -/
def execObjG1v2 (u : ObjUse) (s : State) : Result := useObj 1 2 u s

/-- OBJ.g10v1 (R162). -/
def execObjG10v1 (u : ObjUse) (s : State) : Result := useObj 10 1 u s

/-- OBJ.g10v2 (R163). -/
def execObjG10v2 (u : ObjUse) (s : State) : Result := useObj 10 2 u s

/-- OBJ.g20v1 (R164). -/
def execObjG20v1 (u : ObjUse) (s : State) : Result := useObj 20 1 u s

/-- OBJ.g20v2 (R165). -/
def execObjG20v2 (u : ObjUse) (s : State) : Result := useObj 20 2 u s

/-- OBJ.g20v5 (R166). -/
def execObjG20v5 (u : ObjUse) (s : State) : Result := useObj 20 5 u s

/-- OBJ.g20v6 (R167). -/
def execObjG20v6 (u : ObjUse) (s : State) : Result := useObj 20 6 u s

/-- OBJ.g30v1 (R168). -/
def execObjG30v1 (u : ObjUse) (s : State) : Result := useObj 30 1 u s

/-- OBJ.g30v2 (R169). -/
def execObjG30v2 (u : ObjUse) (s : State) : Result := useObj 30 2 u s

/-- OBJ.g30v3 (R170). -/
def execObjG30v3 (u : ObjUse) (s : State) : Result := useObj 30 3 u s

/-- OBJ.g30v4 (R171). -/
def execObjG30v4 (u : ObjUse) (s : State) : Result := useObj 30 4 u s

/-- OBJ.g30v5 (R172). -/
def execObjG30v5 (u : ObjUse) (s : State) : Result := useObj 30 5 u s

/-- OBJ.g30v6 (R173). -/
def execObjG30v6 (u : ObjUse) (s : State) : Result := useObj 30 6 u s

/-- OBJ.g40v1 (R174). -/
def execObjG40v1 (u : ObjUse) (s : State) : Result := useObj 40 1 u s

/-- OBJ.g40v2 (R175). -/
def execObjG40v2 (u : ObjUse) (s : State) : Result := useObj 40 2 u s

/-- OBJ.g40v3 (R176). -/
def execObjG40v3 (u : ObjUse) (s : State) : Result := useObj 40 3 u s

/-- OBJ.g40v4 (R177). -/
def execObjG40v4 (u : ObjUse) (s : State) : Result := useObj 40 4 u s

/-- OBJ.g41v1 (R178). -/
def execObjG41v1 (u : ObjUse) (s : State) : Result := useObj 41 1 u s

/-- OBJ.g41v2 (R179). -/
def execObjG41v2 (u : ObjUse) (s : State) : Result := useObj 41 2 u s

/-- OBJ.g41v3 (R180). -/
def execObjG41v3 (u : ObjUse) (s : State) : Result := useObj 41 3 u s

/-- OBJ.g41v4 (R181). -/
def execObjG41v4 (u : ObjUse) (s : State) : Result := useObj 41 4 u s

/-- OBJ.(other) (R147, R142): UnknownObject when parsed, EncUnknownObject when built. -/
def execObjOther (group variation : Byte) (u : ObjUse) (s : State) : Result := useObj group variation u s

end Sys2Proof.Machine
end

