-- ==== Sys2Proof/Machine/Dispatch.lean ====
section
/-! DEFINITION. One arm per constructor of Instr: every row of spec/opcode_table.json has its meaning. -/

namespace Sys2Proof.Machine

def exec (i : Instr) (s : State) : Host.Outcome State Fault Refusal :=
  match i with
  | .crcClr => Sys2Proof.Machine.execCrcClr s
  | .crcUpd b => Sys2Proof.Machine.execCrcUpd b s
  | .crcRd => Sys2Proof.Machine.execCrcRd s
  | .crcCalc => Sys2Proof.Machine.execCrcCalc s
  | .crcChk => Sys2Proof.Machine.execCrcChk s
  | .linkEnc a => Sys2Proof.Machine.execLinkEnc a s
  | .linkDec => Sys2Proof.Machine.execLinkDec s
  | .tpSeg seg => Sys2Proof.Machine.execTpSeg seg s
  | .tpRx => Sys2Proof.Machine.execTpRx s
  | .tpRst => Sys2Proof.Machine.execTpRst s
  | .appEncRead a => Sys2Proof.Machine.execAppEncRead a s
  | .appEncWrite func a => Sys2Proof.Machine.execAppEncWrite func a s
  | .appEncConfirm a => Sys2Proof.Machine.execAppEncConfirm a s
  | .appEncResp a => Sys2Proof.Machine.execAppEncResp a s
  | .appDec => Sys2Proof.Machine.execAppDec s
  | .illegal op => Sys2Proof.Machine.execIllegal op s
  | .lnk u => Sys2Proof.Machine.execLnk u s
  | .blk u => Sys2Proof.Machine.execBlk u s
  | .tph u => Sys2Proof.Machine.execTph u s
  | .apc u => Sys2Proof.Machine.execApc u s
  | .iin u => Sys2Proof.Machine.execIin u s
  | .fcConfirm u => Sys2Proof.Machine.execFcConfirm u s
  | .fcRead u => Sys2Proof.Machine.execFcRead u s
  | .fcWrite u => Sys2Proof.Machine.execFcWrite u s
  | .fcSelect u => Sys2Proof.Machine.execFcSelect u s
  | .fcOperate u => Sys2Proof.Machine.execFcOperate u s
  | .fcDirectOperate u => Sys2Proof.Machine.execFcDirectOperate u s
  | .fcResponse u => Sys2Proof.Machine.execFcResponse u s
  | .fcOther code u => Sys2Proof.Machine.execFcOther code u s
  | .qualRange8 u => Sys2Proof.Machine.execQualRange8 u s
  | .qualRange16 u => Sys2Proof.Machine.execQualRange16 u s
  | .qualAll u => Sys2Proof.Machine.execQualAll u s
  | .qualCountIndex16 u => Sys2Proof.Machine.execQualCountIndex16 u s
  | .qualOther q p => Sys2Proof.Machine.execQualOther q p s
  | .objG1v1 u => Sys2Proof.Machine.execObjG1v1 u s
  | .objG1v2 u => Sys2Proof.Machine.execObjG1v2 u s
  | .objG10v1 u => Sys2Proof.Machine.execObjG10v1 u s
  | .objG10v2 u => Sys2Proof.Machine.execObjG10v2 u s
  | .objG20v1 u => Sys2Proof.Machine.execObjG20v1 u s
  | .objG20v2 u => Sys2Proof.Machine.execObjG20v2 u s
  | .objG20v5 u => Sys2Proof.Machine.execObjG20v5 u s
  | .objG20v6 u => Sys2Proof.Machine.execObjG20v6 u s
  | .objG30v1 u => Sys2Proof.Machine.execObjG30v1 u s
  | .objG30v2 u => Sys2Proof.Machine.execObjG30v2 u s
  | .objG30v3 u => Sys2Proof.Machine.execObjG30v3 u s
  | .objG30v4 u => Sys2Proof.Machine.execObjG30v4 u s
  | .objG30v5 u => Sys2Proof.Machine.execObjG30v5 u s
  | .objG30v6 u => Sys2Proof.Machine.execObjG30v6 u s
  | .objG40v1 u => Sys2Proof.Machine.execObjG40v1 u s
  | .objG40v2 u => Sys2Proof.Machine.execObjG40v2 u s
  | .objG40v3 u => Sys2Proof.Machine.execObjG40v3 u s
  | .objG40v4 u => Sys2Proof.Machine.execObjG40v4 u s
  | .objG41v1 u => Sys2Proof.Machine.execObjG41v1 u s
  | .objG41v2 u => Sys2Proof.Machine.execObjG41v2 u s
  | .objG41v3 u => Sys2Proof.Machine.execObjG41v3 u s
  | .objG41v4 u => Sys2Proof.Machine.execObjG41v4 u s
  | .objOther group variation u => Sys2Proof.Machine.execObjOther group variation u s

end Sys2Proof.Machine
end

