-- ==== Sys2Proof/Machine/Step.lean ====
section
/-! DEFINITION. One step of the machine: the host's next act at the port (spec/20_memory.md R40). -/

namespace Sys2Proof.Machine

/-- One step: nothing at the port and the block holds its state (spec/60_exceptions.md R215); a write of IN by the host; or
one operation run to its end. -/
def step (s : State) : Host.Outcome State Fault Refusal :=
  match fetch s with
  | .idle => .next s
  | .wrote s' => .next s'
  | .run i s' => exec i s'
  | .stop r => .refused r

/-- The state whose next step runs a word of the opcode table: the word, with operand fields all 0, put first at the port. A
word of a length no row has changes nothing. -/
def State.withFetchWord (s : State) (nbits w : Nat) : State :=
  match tableIssue nbits w with
  | none => s
  | some x => s.issueFirst x

end Sys2Proof.Machine
end

