-- ==== Sys2Proof/Safety.lean ====
section
/-! DEFINITION. The terms the claims use. What a sound state of the block is: the invariants of spec/10_state.md R26, the bounds of the spaces
(spec/20_memory.md R30, R31), the canonical form of RXB, and that the bytes below RX_LEN were written (R16). TX_SEQ and
RX_EXPECT are below 64 by their type (R26 item 1). -/

namespace Sys2Proof.Machine

/-- A sound state. -/
structure State.Inv (s : State) : Prop where
  /-- R26 item 2 -/
  rxLen_le : s.rxLen.toNat ≤ cfg.rxBufMax
  /-- R26 item 3 -/
  idle_empty : s.rxActive = false → s.rxLen = 0
  /-- R26 item 4 -/
  status_listed : s.status ∈ statusCodes
  /-- R26 item 5 -/
  ok_no_error : s.status.toNat < 0x10 → s.errOffset = 0 ∧ s.errExpected = 0 ∧ s.errActual = 0
  /-- the canonical form of RXB -/
  rxBuf_wf : s.rxBuf.wf
  /-- RXB's capacity (R30) -/
  rxBuf_bound : ∀ c ∈ s.rxBuf, c.1 < cfg.rxBufMax
  /-- the bytes of the message in progress were written (R16) -/
  rxBuf_held : ∀ k, k < s.rxLen.toNat → (s.rxBuf.read k).isSome
  /-- IN's capacity (R30) -/
  in_bound : s.inBuf.length ≤ cfg.apduMax
  /-- OUT's capacity (R30) -/
  out_bound : s.outBuf.length ≤ outCapacity
  /-- PTS's bound (R31) -/
  pts_bound : s.pts.length < 8 * cfg.apduMax

/-! ### How an operation ended, in the codes of spec/60_exceptions.md R201 -/

/-- The state with STATUS, the three error registers and the named results as given. -/
def State.endedWith (s : State) (code : Byte) (offset expected actual : Nat) (r : Results) : State :=
  { s with
    status := code
    errOffset := BitVec.ofNat 16 offset
    errExpected := BitVec.ofNat 16 expected
    errActual := BitVec.ofNat 16 actual
    results := r }

/-- The state of an operation that ended OK with the given results (R205). -/
def State.endedOk (s : State) (r : Results) : State := s.endedWith 0x00 0 0 0 r

/-- The instruction ends in the state given, of whose named results nothing is said: its operation has none, and what then
stands in their place is the model's choice (log entry 4). -/
def endsIn (i : Instr) (s t : State) : Prop := ∃ r, exec i s = .next { t with results := r }

/-- The statuses the Link decoder ends with (R201, column "raised by"). -/
def linkDecodeStatuses : List Byte := [0x00, 0x10, 0x11, 0x12, 0x13, 0x14]

/-- The statuses APP.DEC ends with (R201). -/
def appDecodeStatuses : List Byte := [0x00, 0x30, 0x31, 0x32, 0x33]

/-- The statuses APP.ENC.WRITE and APP.ENC.RESP end with (R201). -/
def appEncodeStatuses : List Byte := [0x00, 0x38, 0x39, 0x3A]

/-- The statuses APP.ENC.READ ends with (R201). -/
def appReadStatuses : List Byte := [0x00, 0x39, 0x3A]

/-- The statuses TP.RX ends with (R201). -/
def tpReceiveStatuses : List Byte := [0x00, 0x01, 0x02, 0x20, 0x21, 0x22]

/-- The statuses of a wire item's two uses: an encoder's to build it, APP.DEC's to parse it. -/
def useStatuses {α β : Type} (build : List Byte) : Use α β → List Byte
  | .build _ => build
  | .parse _ => appDecodeStatuses

/-- The statuses an instruction may end with: R201's column "raised by", read by operation; a wire item's are those of the
operation that builds or parses it. -/
def statusesOf : Instr → List Byte
  | .crcClr | .crcUpd _ | .crcRd | .crcCalc | .tpRst | .appEncConfirm _ => [0x00]
  | .crcChk => [0x00, 0x10]
  | .linkEnc _ => [0x00, 0x15]
  | .linkDec => linkDecodeStatuses
  | .tpSeg _ => [0x00, 0x23]
  | .tpRx => tpReceiveStatuses
  | .appEncRead _ => appReadStatuses
  | .appEncWrite _ _ | .appEncResp _ => appEncodeStatuses
  | .appDec => appDecodeStatuses
  | .illegal _ => [0xFF]
  | .lnk (.build _) | .blk (.build _) => [0x00, 0x15]
  | .lnk (.parse _) | .blk (.parse _) => linkDecodeStatuses
  | .tph (.build _) => [0x00, 0x23]
  | .tph (.parse _) => tpReceiveStatuses
  | .apc u => useStatuses appEncodeStatuses u
  | .iin u => useStatuses appEncodeStatuses u
  | .fcConfirm u => useStatuses [0x00] u
  | .fcRead u => useStatuses appReadStatuses u
  | .fcWrite u | .fcSelect u | .fcOperate u | .fcDirectOperate u => useStatuses appEncodeStatuses u
  | .fcResponse u => useStatuses appEncodeStatuses u
  | .fcOther _ u => useStatuses appEncodeStatuses u
  | .qualRange8 u => useStatuses appReadStatuses u
  | .qualRange16 u => useStatuses appReadStatuses u
  | .qualAll u => useStatuses appReadStatuses u
  | .qualCountIndex16 u => useStatuses appReadStatuses u
  | .qualOther _ _ => appDecodeStatuses
  | .objG1v1 u | .objG1v2 u | .objG10v1 u | .objG10v2 u => useStatuses appEncodeStatuses u
  | .objG20v1 u | .objG20v2 u | .objG20v5 u | .objG20v6 u => useStatuses appEncodeStatuses u
  | .objG30v1 u | .objG30v2 u | .objG30v3 u | .objG30v4 u => useStatuses appEncodeStatuses u
  | .objG30v5 u | .objG30v6 u | .objG40v1 u | .objG40v2 u => useStatuses appEncodeStatuses u
  | .objG40v3 u | .objG40v4 u | .objG41v1 u | .objG41v2 u => useStatuses appEncodeStatuses u
  | .objG41v3 u | .objG41v4 u => useStatuses appEncodeStatuses u
  | .objOther _ _ u => useStatuses appEncodeStatuses u

/-- The 22 object rows: how an instruction of the row is made, its group and its variation (R60). -/
def objectRows : List ((ObjUse → Instr) × Byte × Byte) :=
  [(.objG1v1, 1, 1), (.objG1v2, 1, 2), (.objG10v1, 10, 1), (.objG10v2, 10, 2),
   (.objG20v1, 20, 1), (.objG20v2, 20, 2), (.objG20v5, 20, 5), (.objG20v6, 20, 6),
   (.objG30v1, 30, 1), (.objG30v2, 30, 2), (.objG30v3, 30, 3), (.objG30v4, 30, 4), (.objG30v5, 30, 5), (.objG30v6, 30, 6),
   (.objG40v1, 40, 1), (.objG40v2, 40, 2), (.objG40v3, 40, 3), (.objG40v4, 40, 4),
   (.objG41v1, 41, 1), (.objG41v2, 41, 2), (.objG41v3, 41, 3), (.objG41v4, 41, 4)]

/-- The commands: the instructions the host issues by a command code (R46 to R48). -/
def isCommand (i : Instr) : Bool := (encode i).format == .op

/-- A use that parses. -/
def isParse {α β : Type} : Use α β → Bool
  | .build _ => false
  | .parse _ => true

/-- The instructions that run APP.DEC: itself, and an Application item parsed. -/
def runsAppDec : Instr → Bool
  | .appDec => true
  | .apc u => isParse u
  | .iin u => isParse u
  | .fcConfirm u => isParse u
  | .fcRead u => isParse u
  | .fcWrite u | .fcSelect u | .fcOperate u | .fcDirectOperate u | .fcOther _ u => isParse u
  | .fcResponse u => isParse u
  | .qualRange8 u => isParse u
  | .qualRange16 u => isParse u
  | .qualAll u => isParse u
  | .qualCountIndex16 u => isParse u
  | .qualOther _ _ => true
  | .objG1v1 u | .objG1v2 u | .objG10v1 u | .objG10v2 u => isParse u
  | .objG20v1 u | .objG20v2 u | .objG20v5 u | .objG20v6 u => isParse u
  | .objG30v1 u | .objG30v2 u | .objG30v3 u | .objG30v4 u | .objG30v5 u | .objG30v6 u => isParse u
  | .objG40v1 u | .objG40v2 u | .objG40v3 u | .objG40v4 u => isParse u
  | .objG41v1 u | .objG41v2 u | .objG41v3 u | .objG41v4 u => isParse u
  | .objOther _ _ u => isParse u
  | .crcClr | .crcUpd _ | .crcRd | .crcCalc | .crcChk | .linkEnc _ | .linkDec => false
  | .tpSeg _ | .tpRx | .tpRst | .appEncRead _ | .appEncWrite _ _ | .appEncConfirm _ | .appEncResp _ => false
  | .illegal _ | .lnk _ | .blk _ | .tph _ => false

/-- The instructions that write no byte of OUT and do not empty it (R33, R205). -/
def leavesOut (i : Instr) : Bool :=
  match i with
  | .crcClr | .crcUpd _ | .crcRd | .crcCalc | .crcChk | .tpRst | .illegal _ => true
  | _ => runsAppDec i

/-- The instructions that run LINK.DEC: itself, and a Link item parsed. -/
def runsLinkDec : Instr → Bool
  | .linkDec => true
  | .lnk u => isParse u
  | .blk u => isParse u
  | _ => false

/-- The instructions that run TP.RX: itself, and a transport header parsed. -/
def runsTpRx : Instr → Bool
  | .tpRx => true
  | .tph u => isParse u
  | _ => false

/-- The instructions that run TP.SEG: itself, and a transport header built. -/
def runsTpSeg : Instr → Bool
  | .tpSeg _ => true
  | .tph u => !isParse u
  | _ => false

/-- The instructions whose operation has no named result (R83 to R145, each rule's line "Result"). -/
def namesNoResult (i : Instr) : Bool :=
  match i with
  | .crcRd | .crcCalc | .crcChk => false
  | _ => !(runsAppDec i || runsLinkDec i || runsTpSeg i)

/-! ### Runs of operations -/

/-- Operations one after another on the same IN, to the first stop. -/
def runAll : List Instr → State → Result
  | [], s => .next s
  | i :: is, s =>
    match exec i s with
    | .next t => runAll is t
    | .fault r => .fault r
    | .refused r => .refused r

/-- TP.RX for each payload in order, the host writing IN before each (spec/70_reset_and_hazards.md R238). -/
def feed : List Bytes → State → Result
  | [], s => .next s
  | p :: ps, s =>
    match exec .tpRx (s.setIn p) with
    | .next t => feed ps t
    | .fault r => .fault r
    | .refused r => .refused r

/-- The receiving side of the Link and Transport units over whole frames, in order (spec/30_encoding.md R67): LINK.DEC on each
frame, then TP.RX on the payload it left in OUT; the run ends at the first frame LINK.DEC refuses. -/
def receiveFrames : List Bytes → State → Result
  | [], s => .next s
  | f :: fs, s =>
    match exec .linkDec (s.setIn f) with
    | .next t =>
      if t.status = 0x00 then
        match exec .tpRx (t.setIn t.outBuf) with
        | .next u => receiveFrames fs u
        | .fault r => .fault r
        | .refused r => .refused r
      else .next t
    | .fault r => .fault r
    | .refused r => .refused r

/-- A payload is a segment with FIR = 1 (spec/30_encoding.md R52): bit 6 of its first byte. -/
def startsMessage : Bytes → Bool
  | [] => false
  | h :: _ => h.getLsbD 6

/-- The segment payload of a frame payload: what follows the transport header (R115). -/
def segmentPayload (p : Bytes) : Bytes := p.drop 1

/-! ### Byte strings -/

/-- A byte string with bit `k % 8` of byte `k / 8` flipped. -/
def flipBit (s : Bytes) (k : Nat) : Bytes := s.modify (k / 8) (fun b => b ^^^ (1#8 <<< (k % 8)))

/-- The offset of data block `j` in a frame: 10 header bytes and 18 bytes for each full block before it (R50). -/
def blockOffset (j : Nat) : Nat := 10 + 18 * j

/-- The payload bytes of data block `j` of a frame with `n` payload bytes (R50). -/
def blockSize (n j : Nat) : Nat := min 16 (n - 16 * j)

/-- Data block `j` of a received frame: its payload bytes and the CRC after them differ from what R50 asks. -/
def blockBad (buf : Bytes) (n j : Nat) : Prop :=
  crc16 (slice buf (blockOffset j) (blockSize n j)) ≠ word16At buf (blockOffset j + blockSize n j)

/-! ### What an encoder accepts and what the decoder returns for it (spec/43_application.md R142, R156) -/

/-- A data block APP.ENC.WRITE and APP.ENC.RESP accept (R142). -/
def blockAccepted (b : DataBlock) : Prop :=
  ∃ d, lookupObj b.group b.variation = some d ∧
    match b.form with
    | .all => False
    | .index idx => d.kind ≠ .packed ∧ b.points.length = idx.length
    | .range start stop => start.toNat ≤ stop.toNat ∧ b.points.length = stop.toNat - start.toNat + 1

/-- The indices a form names, in its order (R137). -/
def formIndices : Form → List U16
  | .index idx => idx
  | .range start stop => (List.range (stop.toNat - start.toNat + 1)).map (fun k => BitVec.ofNat 16 (start.toNat + k))
  | .all => []

/-- The bits of an entry that its object carries (R156): the low `8 * vbytes` bits, or bit 0 for the binary kinds. -/
def entryRaw (d : Descriptor) (e : PointEntry) : Nat :=
  match d.kind with
  | .packed | .boolflag => (e.raw.getLsbD 0).toNat
  | .int | .float => e.raw.toNat % 2 ^ (8 * d.vbytes)

/-- The flag byte an entry comes back with, if its object has one (R156). -/
def entryFlags (d : Descriptor) (e : PointEntry) : Option Byte :=
  match d.kind with
  | .packed => none
  | .boolflag => some ((e.flags &&& 0x7F) ||| (if e.raw.getLsbD 0 then 0x80 else 0x00))
  | .int | .float => if d.flagPos = .none then none else some e.flags

/-- The number of a point (R150): two's complement for a signed INT, unsigned otherwise, none for FLOAT. -/
def entryValue (d : Descriptor) (raw : Nat) : Option Int :=
  if d.kind = .float then none
  else if d.kind = .int ∧ d.signed ∧ 2 ^ (8 * d.vbytes - 1) ≤ raw then some (raw - 2 ^ (8 * d.vbytes))
  else some raw

/-- The record of one entry (R150, R151, R156). -/
def entryRecord (d : Descriptor) (g v : Byte) (index : U16) (e : PointEntry) : PointRec where
  group := g
  variation := v
  ptype := d.ptype
  kind := d.kind
  index := index
  raw := BitVec.ofNat 64 (entryRaw d e)
  value := entryValue d (entryRaw d e)
  hasFlags := (entryFlags d e).isSome
  flags := (entryFlags d e).getD 0
  hasOnline := (entryFlags d e).isSome && d.flagRole == .quality
  online := (entryFlags d e).isSome && d.flagRole == .quality && ((entryFlags d e).getD 0).getLsbD 0

/-- The records of a data block: one for each entry, in order (R156). -/
def blockRecords (b : DataBlock) : List PointRec :=
  match lookupObj b.group b.variation with
  | none => []
  | some d => List.zipWith (entryRecord d b.group b.variation) (formIndices b.form) b.points

/-- The qualifier byte and the range field of a received range (R57, R148): one-byte bounds up to 255, or two-byte bounds
whatever they are. -/
abbrev RangeReads (start stop : U16) (field : Bytes) : Prop :=
  start.toNat ≤ stop.toNat ∧
    (stop.toNat ≤ 255 ∧ field = [0x00, start.extractLsb' 0 8, stop.extractLsb' 0 8] ∨
      field = [0x01] ++ le16 start ++ le16 stop)

/-- The records of `count` packed points from index `start` (R149, R62): point `i` is bit `i mod 8` of byte `i / 8` of the data
area, and no other bit of it counts. A record has no flag byte; its fields `flags` and `online` are 0 and false by log
entry 7. -/
def packedRecords (d : Descriptor) (g v : Byte) (start count : Nat) (data : Bytes) : List PointRec :=
  (List.range count).map (fun i =>
    entryRecord d g v (BitVec.ofNat 16 (start + i)) ⟨if (byteAt data (i / 8)).getLsbD (i % 8) then 1 else 0, 0⟩)

/-- The bytes of an object block that stands complete in a received fragment, and the records it holds (R147 to R150). A packed
data area is any bytes of its length, padding included; the data area of any other kind is given by its points, and
every data area of the right length is one of those (`encPoint` is onto the point sizes). -/
inductive BlockReads : Bytes → List PointRec → Prop where
  | range {g v d start stop field points} : lookupObj g v = some d → d.kind ≠ .packed → RangeReads start stop field →
      points.length = stop.toNat - start.toNat + 1 →
      BlockReads ([g, v] ++ field ++ points.flatMap (encPoint d)) (blockRecords ⟨g, v, .range start stop, points⟩)
  | packed {g v d start stop field data} : lookupObj g v = some d → d.kind = .packed → RangeReads start stop field →
      data.length = (stop.toNat - start.toNat + 1 + 7) / 8 →
      BlockReads ([g, v] ++ field ++ data)
        (packedRecords d g v start.toNat (stop.toNat - start.toNat + 1) data)
  | index {g v d idx points} : lookupObj g v = some d → d.kind ≠ .packed → idx.length ≤ 65535 →
      points.length = idx.length →
      BlockReads ([g, v, 0x28] ++ le16 (BitVec.ofNat 16 idx.length) ++
        (idx.zip points).flatMap (fun x => le16 x.1 ++ encPoint d x.2)) (blockRecords ⟨g, v, .index idx, points⟩)

/-- A control byte by its bits (R53): FIR 128, FIN 64, CON 32, UNS 16, the sequence below. -/
def controlByte (fir fin con uns : Bool) (seq : BitVec 4) : Byte :=
  BitVec.ofNat 8 ((if fir then 128 else 0) + (if fin then 64 else 0) + (if con then 32 else 0) + (if uns then 16 else 0)
    + seq.toNat)

/-- The bits of a control byte (R53). -/
def controlBits (b : Byte) : ApcBits := ⟨b.getLsbD 7, b.getLsbD 6, b.getLsbD 5, b.getLsbD 4, b.setWidth 4⟩

/-- The header results of a RESPONSE fragment (R146). -/
def responseResults (apc iin1 iin2 : Byte) : Results :=
  .fragment ⟨controlBits apc, 0x81, .response, true, iin1, iin2, BitVec.ofNat 16 (iin1.toNat + 256 * iin2.toNat)⟩

/-- The header results of a CONFIRM fragment (R146). -/
def confirmResults (apc : Byte) : Results := .fragment ⟨controlBits apc, 0x00, .confirm, false, 0, 0, 0⟩

/-- The bytes of a request block (R138, R141). -/
def requestBytes (b : ReqBlock) : Bytes :=
  match b.form with
  | .index idx => [b.group, b.variation, 0x28] ++ le16 (BitVec.ofNat 16 idx.length) ++ idx.flatMap le16
  | .range start stop =>
    if stop.toNat ≤ 255 then [b.group, b.variation, 0x00, start.extractLsb' 0 8, stop.extractLsb' 0 8]
    else [b.group, b.variation, 0x01] ++ le16 start ++ le16 stop
  | .all => [b.group, b.variation, 0x06]

/-- A request block APP.ENC.READ accepts (R141). -/
def requestAccepted (b : ReqBlock) : Prop := ∀ start stop, b.form = .range start stop → start.toNat ≤ stop.toNat

/-- How an encoder that passed all its block checks ends (R141, R142): the fragment in OUT, or EncTooLong. -/
def emitted (fragment : Bytes) (s : State) : State :=
  if fragment.length ≤ 4096 then { s with outBuf := fragment }.endedOk .none
  else { s with outBuf := [] }.endedWith 0x3A 0 4096 (min fragment.length 65535) .none

/-- What R141 says of an instruction that encodes request blocks behind the two header bytes `head`: the first block whose
range is backwards is refused, with its position; otherwise the fragment is the header and every block's bytes. -/
def encodesRequest (i : Instr) (head : Bytes) (blocks : List ReqBlock) : Prop :=
  ∀ s : State,
    (∀ pre b post start stop, blocks = pre ++ b :: post → (∀ c ∈ pre, requestAccepted c) →
      b.form = .range start stop → stop.toNat < start.toNat →
      exec i s = .next ({ s with outBuf := [] }.endedWith 0x39 pre.length start.toNat stop.toNat .none)) ∧
    ((∀ b ∈ blocks, requestAccepted b) → endsIn i s (emitted (head ++ blocks.flatMap requestBytes) s))

/-- The refusal R142 gives a data block, with what it records as expected and actual: the first check that fails. -/
inductive BlockRefused (b : DataBlock) : Byte → Nat → Nat → Prop where
  | unknownObject : lookupObj b.group b.variation = none →
      BlockRefused b 0x38 0 (b.group.toNat * 256 + b.variation.toNat)
  | formAll {d} : lookupObj b.group b.variation = some d → b.form = .all → BlockRefused b 0x39 0 0x06
  | backwards {d start stop} : lookupObj b.group b.variation = some d → b.form = .range start stop →
      stop.toNat < start.toNat → BlockRefused b 0x39 start.toNat stop.toNat
  | packedIndex {d idx} : lookupObj b.group b.variation = some d → b.form = .index idx → d.kind = .packed →
      BlockRefused b 0x39 0 0x28
  | countOfIndex {d idx} : lookupObj b.group b.variation = some d → b.form = .index idx → d.kind ≠ .packed →
      b.points.length ≠ idx.length →
      BlockRefused b 0x39 (min idx.length 65535) (min b.points.length 65535)
  | countOfRange {d start stop} : lookupObj b.group b.variation = some d → b.form = .range start stop →
      start.toNat ≤ stop.toNat → b.points.length ≠ stop.toNat - start.toNat + 1 →
      BlockRefused b 0x39 (min (stop.toNat - start.toNat + 1) 65535) (min b.points.length 65535)

/-- What R142 says of an instruction that encodes data blocks behind the header `head`: the first block that is refused
is reported, with its position; otherwise the fragment is the header and every block's bytes. -/
def encodesBlocks (i : Instr) (head : Bytes) (blocks : List DataBlock) : Prop :=
  ∀ s : State,
    (∀ pre b post code expected actual, blocks = pre ++ b :: post → (∀ c ∈ pre, blockAccepted c) →
      BlockRefused b code expected actual →
      exec i s = .next ({ s with outBuf := [] }.endedWith code pre.length expected actual .none)) ∧
    ((∀ b ∈ blocks, blockAccepted b) → endsIn i s (emitted (head ++ blocks.flatMap encDataBlock) s))

end Sys2Proof.Machine
end

