-- ==== Sys2Proof/Certificates/Slice0/Obligations.lean ====
section
/-! DEFINITION. The statements for the provers: what the spec's numbered rules say of the model. `OBLIGATIONS.json` lists them
with their rules. Where a statement writes the whole next state, the fields it does not name are those of the state
before: that is the frame. `endsIn` says the whole next state but for the named results, for an operation that has none.
A failing operation returns no results (spec/93_implementation_defined.md U14). -/

section
open Sys2Proof Sys2Proof.Machine

/-! ### The step, the port, the words -/

/-- One step does the host's next act (R40): a word that decodes runs its instruction on the state without that word, a word
that does not is refused by name, a write of IN within its capacity replaces IN, and with nothing at the port the block
holds its state (R215). A table word placed by `withFetchWord` is the next instruction run. The model's choices: the port
(log entry 1), the refusal of a word that does not decode (log entry 8), the refusal of a write past IN's capacity (log
entry 9), and how `withFetchWord` lays out a table word (log entry 3). -/
def Obligations.StepRunsDecodedInstruction : Prop :=
  ∀ (s : State) (rest : List HostAct),
    (∀ w i, s.port = .issue w :: rest → decode w = .ok i → i.WellFormed ∧ step s = exec i (s.setPort rest)) ∧
    (∀ w e, s.port = .issue w :: rest → decode w = .error e → step s = .refused (.undecodable e)) ∧
    (∀ bs : Bytes, s.port = .writeIn bs :: rest →
      step s = if bs.length ≤ 4096 then .next { s with port := rest, inBuf := bs } else .refused .inOverCapacity) ∧
    (s.port = [] → step s = .next s) ∧
    (∀ nbits w i, decodeTableWord nbits w = some i → step (s.withFetchWord nbits w) = exec i s)

/-- Decode and encode agree on every well-formed instruction, with every operand at every value. -/
def Obligations.DecodeEncodeRoundTrip : Prop :=
  ∀ i : Instr, i.WellFormed → decode (encode i) = .ok i

/-- The command codes of R47, each with its named operands. The three encoders of lists take any lists whose index forms hold
at most 65535 indices (R137). -/
def Obligations.CommandCodesDecode : Prop :=
  ∀ a : Args,
    decode ⟨.op, [0x00], a⟩ = .ok .crcClr ∧
    decode ⟨.op, [0x01], a⟩ = .ok (.crcUpd a.b) ∧
    decode ⟨.op, [0x02], a⟩ = .ok .crcRd ∧
    decode ⟨.op, [0x03], a⟩ = .ok .crcCalc ∧
    decode ⟨.op, [0x04], a⟩ = .ok .crcChk ∧
    decode ⟨.op, [0x10], a⟩ = .ok (.linkEnc ⟨a.control, a.dest, a.src⟩) ∧
    decode ⟨.op, [0x11], a⟩ = .ok .linkDec ∧
    decode ⟨.op, [0x20], a⟩ = .ok (.tpSeg a.seg) ∧
    decode ⟨.op, [0x21], a⟩ = .ok .tpRx ∧
    decode ⟨.op, [0x22], a⟩ = .ok .tpRst ∧
    ((∀ b ∈ a.reqBlocks, b.form.fits = true) →
      decode ⟨.op, [0x30], a⟩ = .ok (.appEncRead ⟨a.con, a.seq, a.reqBlocks⟩)) ∧
    ((∀ b ∈ a.dataBlocks, b.form.fits = true) →
      decode ⟨.op, [0x31], a⟩ = .ok (.appEncWrite a.func ⟨a.con, a.seq, a.dataBlocks⟩)) ∧
    decode ⟨.op, [0x32], a⟩ = .ok (.appEncConfirm ⟨a.seq, a.uns⟩) ∧
    ((∀ b ∈ a.dataBlocks, b.form.fits = true) →
      decode ⟨.op, [0x33], a⟩ =
        .ok (.appEncResp ⟨⟨a.fir, a.fin, a.con, a.uns, a.seq⟩, a.iin1, a.iin2, a.dataBlocks⟩)) ∧
    decode ⟨.op, [0x34], a⟩ = .ok .appDec

/-- R48: every other command code is the illegal command, which ends with STATUS 0xFF and the code in ERR_ACTUAL and changes
nothing else. -/
def Obligations.IllegalCommand : Prop :=
  ∀ (op : Byte) (a : Args) (s : State),
    (0x05 ≤ op.toNat ∧ op.toNat ≤ 0x0F) ∨ (0x12 ≤ op.toNat ∧ op.toNat ≤ 0x1F) ∨
      (0x23 ≤ op.toNat ∧ op.toNat ≤ 0x2F) ∨ (0x35 ≤ op.toNat ∧ op.toNat ≤ 0xFF) →
    decode ⟨.op, [op], a⟩ = .ok (.illegal op) ∧
    exec (.illegal op) s = .next (s.endedWith 0xFF 0 0 op.toNat .none)

/-- A word of each wire format, its code bytes written out from the format's table, decodes to the item it holds. -/
def Obligations.SampleWordsDecode : Prop :=
  decode ⟨.lnk, [0x05, 0x64, 0x05, 0xC0, 0x01, 0x00, 0x00, 0x04, 0xE9, 0x21], {}⟩ =
      .ok (.lnk (.parse ⟨0x05, 0x64, 5, 0xC0, 1, 1024, 0x21E9, []⟩)) ∧
    decode ⟨.blk, [0xC0, 0x1D, 0x0A], {}⟩ = .ok (.blk (.parse ⟨⟨0, 0, 0⟩, [0xC0], 0x0A1D⟩)) ∧
    decode ⟨.tph, [0b10_000101], {}⟩ = .ok (.tph (.parse ⟨true, false, 5, []⟩)) ∧
    decode ⟨.apc, [0b1110_0011], {}⟩ = .ok (.apc (.parse ⟨⟨true, true, true, false, 3⟩, []⟩)) ∧
    decode ⟨.iin, [0x90, 0x01], {}⟩ = .ok (.iin (.parse ⟨0, 0x90, 0x01, []⟩)) ∧
    decode ⟨.fc, [0x81], {}⟩ = .ok (.fcResponse (.parse ⟨0, []⟩)) ∧
    decode ⟨.qual, [0x28], {}⟩ = .ok (.qualCountIndex16 (.parse ⟨⟨0, 0, 0⟩, 0, 0, []⟩)) ∧
    decode ⟨.obj, [0x1E, 0x02, 0x28], {}⟩ = .ok (.objG30v2 (.parse ⟨⟨0, 0, 0⟩, 0x28, []⟩))

/-! ### Reset and soundness -/

/-- R231 with R24: the reset value of every register, and the three host buffers empty. RX_BUF, whose contents the rule leaves
unspecified, is not spoken of. -/
def Obligations.ResetState : Prop :=
  State.reset.crcAcc = 0x0000 ∧ State.reset.txSeq = 0 ∧ State.reset.rxActive = false ∧ State.reset.rxExpect = 0 ∧
    State.reset.rxLen = 0 ∧ State.reset.stale = false ∧ State.reset.flags = 0 ∧ State.reset.status = 0x00 ∧
    State.reset.errOffset = 0x0000 ∧ State.reset.errExpected = 0x0000 ∧ State.reset.errActual = 0x0000 ∧
    State.reset.inBuf = [] ∧ State.reset.outBuf = [] ∧ State.reset.pts = []

/-- The state after reset is sound (R26). -/
def Obligations.ResetIsSound : Prop := State.reset.Inv

/-- R26, R30 and R31 hold after every step from a state in which they hold, whatever the host does. -/
def Obligations.StepKeepsSoundState : Prop :=
  ∀ s t : State, s.Inv → step s = .next t → t.Inv

/-- From a sound state no run, of any length and with anything at the port, stops with a fault: no error stops the block
(R207) and TP.RX delivers only bytes it wrote (R16). -/
def Obligations.SoundRunsNeverFault : Prop :=
  ∀ (n : Nat) (s : State), s.Inv → ∀ r, Sys2Proof.core.run n s ≠ .fault r

/-! ### Frames over all instructions -/

/-- R11: only CRC.CLR and CRC.UPD write CRC_ACC. -/
def Obligations.CrcAccWrittenByStreamOnly : Prop :=
  ∀ (i : Instr) (s t : State), exec i s = .next t → i ≠ .crcClr → (∀ b, i ≠ .crcUpd b) → t.crcAcc = s.crcAcc

/-- R25, the transport columns: TX_SEQ is written by TP.SEG and TP.RST alone, the reassembly and FLAGS.STALE by TP.RX and
TP.RST alone, and TP.RST leaves the bytes of RX_BUF. -/
def Obligations.TransportStateFrame : Prop :=
  ∀ (i : Instr) (s t : State), exec i s = .next t →
    (runsTpSeg i = false → i ≠ .tpRst → t.txSeq = s.txSeq) ∧
    (runsTpRx i = false → i ≠ .tpRst → t.rxActive = s.rxActive ∧ t.rxExpect = s.rxExpect ∧ t.rxLen = s.rxLen ∧
      t.stale = s.stale) ∧
    (runsTpRx i = false → t.rxBuf = s.rxBuf ∧ ∀ a, t.rxBuf.read a = s.rxBuf.read a)

/-- R30, the columns "written by": no command writes IN, only the operations with a byte-string result touch OUT, only APP.DEC
touches PTS; and no instruction touches what the host is still to do. -/
def Obligations.BufferFrame : Prop :=
  ∀ (i : Instr) (s t : State), exec i s = .next t →
    t.port = s.port ∧ (isCommand i = true → t.inBuf = s.inBuf) ∧ (leavesOut i = true → t.outBuf = s.outBuf) ∧
      (runsAppDec i = false → t.pts = s.pts)

/-- R205 and R206: an instruction that ends with an error leaves no named result (but LINK.DEC's `consumed`) and no output it
would have written, and changes no register but, in TP.RX, RX_ACTIVE, RX_LEN and FLAGS.STALE. That the results of a failed
operation are absent is U14 of spec/93_implementation_defined.md. STALE is 0 after an error because a
segment fits IN (R204). -/
def Obligations.FailureDeliversNothing : Prop :=
  ∀ (i : Instr) (s t : State), exec i s = .next t → 0x10 ≤ t.status.toNat →
    (t.results = .none ∨ (runsLinkDec i = true ∧ ∃ c, t.results = .dropped c)) ∧
    (leavesOut i = false → t.outBuf = []) ∧
    (runsAppDec i = true → t.pts = []) ∧
    t.crcAcc = s.crcAcc ∧ t.txSeq = s.txSeq ∧ t.rxExpect = s.rxExpect ∧ t.rxBuf = s.rxBuf ∧
    (runsTpRx i = false → t.rxActive = s.rxActive ∧ t.rxLen = s.rxLen ∧ t.stale = s.stale) ∧
    (runsTpRx i = true → t.rxActive = false ∧ (t.inBuf.length ≤ 4096 → t.stale = false))

/-- An instruction whose operation has no named result leaves none of an earlier operation's: the model's choice (log entry 4);
R240 lets an operation overwrite them. -/
def Obligations.NoResultsLeftOver : Prop :=
  ∀ (i : Instr) (s t : State), exec i s = .next t → namesNoResult i = true → t.results = .none

/-- R201: an instruction ends with one of the statuses the table gives its operation, and with a non-error status the error
registers are 0 (R203). -/
def Obligations.EndsWithListedStatus : Prop :=
  ∀ (i : Instr) (s t : State), exec i s = .next t →
    t.status ∈ statusesOf i ∧
    (t.status.toNat < 0x10 → t.errOffset = 0 ∧ t.errExpected = 0 ∧ t.errActual = 0)

/-- R41 and R135: but for CRC.RD, TP.SEG and TP.RX, what the host sees of an instruction depends on IN alone, not on any
register of the block. Of the named results this is said where the operation has some (what stands in their place after
another is log entry 4). -/
def Obligations.StatelessOperationsSeeOnlyIn : Prop :=
  ∀ (i : Instr) (s₁ s₂ t₁ t₂ : State), i ≠ .crcRd → runsTpSeg i = false → runsTpRx i = false →
    s₁.inBuf = s₂.inBuf → exec i s₁ = .next t₁ → exec i s₂ = .next t₂ →
    t₁.status = t₂.status ∧ t₁.errOffset = t₂.errOffset ∧ t₁.errExpected = t₂.errExpected ∧
      t₁.errActual = t₂.errActual ∧ (namesNoResult i = false → t₁.results = t₂.results) ∧
      (leavesOut i = false → t₁.outBuf = t₂.outBuf) ∧ (runsAppDec i = true → t₁.pts = t₂.pts)

/-! ### The CRC unit -/

/-- R80 and R81: the byte step and the function. -/
def Obligations.CrcDefinition : Prop :=
  (∀ (acc : U16) (b : Byte),
    crcStep acc b =
      (fun r : U16 => if r.getLsbD 0 = true then (r >>> 1) ^^^ 0xA6BC else r >>> 1)^[8] (acc ^^^ b.setWidth 16)) ∧
    (∀ s : Bytes, crc16 s = s.foldl crcStep 0x0000 ^^^ 0xFFFF) ∧ crc16 [] = 0xFFFF

/-- R88: leading zero bytes are invisible, the step is linear over XOR, any single-bit change changes the CRC, and a string
with its CRC appended leaves the constant 0x66C5 in the register. -/
def Obligations.CrcAlgebra : Prop :=
  (crcStep 0x0000 0x00 = 0x0000 ∧ ∀ s : Bytes, crc16 (0x00 :: s) = crc16 s) ∧
    (∀ (a a' : U16) (b b' : Byte), crcStep (a ^^^ a') (b ^^^ b') = crcStep a b ^^^ crcStep a' b') ∧
    (∀ (s : Bytes) (k : Nat), k < 8 * s.length → crc16 (flipBit s k) ≠ crc16 s) ∧
    (∀ s : Bytes, crcFold 0x0000 (s ++ le16 (crc16 s)) = 0x66C5)

/-- R82: the table-driven form is the same function, with the entries the rule lists. -/
def Obligations.CrcTableForm : Prop :=
  (∀ (acc : U16) (b : Byte), crcStep acc b = (acc >>> 8) ^^^ crcStep 0x0000 (acc.setWidth 8 ^^^ b)) ∧
    crcStep 0 0x00 = 0x0000 ∧ crcStep 0 0x01 = 0x365E ∧ crcStep 0 0x02 = 0x6CBC ∧ crcStep 0 0x03 = 0x5AE2 ∧
    crcStep 0 0x04 = 0xD978 ∧ crcStep 0 0x08 = 0xFF89 ∧ crcStep 0 0x0F = 0x7C13 ∧ crcStep 0 0x80 = 0xA6BC ∧
    crcStep 0 0xFF = 0x1235

/-- R83, R84, R85: CRC.CLR, CRC.UPD and CRC.RD. -/
def Obligations.CrcStreamOperations : Prop :=
  ∀ s : State,
    endsIn .crcClr s ({ s with crcAcc := 0x0000 }.endedOk .none) ∧
    (∀ b, endsIn (.crcUpd b) s ({ s with crcAcc := crcStep s.crcAcc b }.endedOk .none)) ∧
    exec .crcRd s = .next (s.endedOk (.crc (s.crcAcc ^^^ 0xFFFF)))

/-- R86, R87: CRC.CALC and CRC.CHK. -/
def Obligations.CrcWholeStringOperations : Prop :=
  ∀ s : State,
    exec .crcCalc s = .next (s.endedOk (.crc (crc16 s.inBuf))) ∧
    (s.inBuf.length < 2 → exec .crcChk s = .next (s.endedWith 0x10 s.inBuf.length 2 s.inBuf.length .none)) ∧
    (∀ (d : Bytes) (lo hi : Byte), s.inBuf = d ++ [lo, hi] →
      exec .crcChk s = .next (s.endedOk
        (.check (decide ((crc16 d).toNat = lo.toNat + 256 * hi.toNat)) (crc16 d)
          (BitVec.ofNat 16 (lo.toNat + 256 * hi.toNat)))))

/-- R86: CRC.CLR, then CRC.UPD for each byte of IN, then CRC.RD end as CRC.CALC does, except that they leave the register
changed. -/
def Obligations.CrcStreamEqualsWhole : Prop :=
  ∀ s : State,
    runAll (.crcClr :: (s.inBuf.map .crcUpd ++ [.crcRd])) s =
      .next ({ s with crcAcc := s.inBuf.foldl crcStep 0x0000 }.endedOk (.crc (crc16 s.inBuf))) ∧
    exec .crcCalc s = .next (s.endedOk (.crc (crc16 s.inBuf)))

/-! ### The Link unit -/

/-- R98 to R101: LINK.ENC leaves in OUT the header, its CRC, and every block of 16 bytes of the payload with its CRC; a payload
of more than 250 bytes is refused. -/
def Obligations.LinkEncodeBuildsFrame : Prop :=
  ∀ (a : LinkAddr) (s : State),
    let p := s.inBuf
    let n := p.length
    let body := [BitVec.ofNat 8 (5 + n), a.control, a.dest.extractLsb' 0 8, a.dest.extractLsb' 8 8,
      a.src.extractLsb' 0 8, a.src.extractLsb' 8 8]
    let f := [0x05, 0x64] ++ body ++ le16 (crc16 body) ++
      (List.range ((n + 15) / 16)).flatMap (fun k =>
        (p.drop (16 * k)).take 16 ++ le16 (crc16 ((p.drop (16 * k)).take 16)))
    (n ≤ 250 → endsIn (.linkEnc a) s ({ s with outBuf := f }.endedOk .none) ∧
      f.length = 10 + n + 2 * ((n + 15) / 16)) ∧
    (250 < n → exec (.linkEnc a) s = .next ({ s with outBuf := [] }.endedWith 0x15 0 250 n .none))

/-- R102, R103, R104: every outcome of LINK.DEC, in the normative order of the checks, with what it records and how many bytes
it tells the host to drop. `blockBad` says that a data block's CRC is not the two bytes after it. -/
def Obligations.LinkDecodeChecksInOrder : Prop :=
  ∀ s : State,
    let buf := s.inBuf
    let m := buf.length
    let u := { s with outBuf := [] }
    let hcrc := crc16 (slice buf 2 6)
    let len := (byteAt buf 2).toNat
    let n := len - 5
    let total := 10 + n + 2 * ((n + 15) / 16)
    (1 ≤ m → byteAt buf 0 ≠ 0x05 →
      exec .linkDec s = .next (u.endedWith 0x11 0 0x05 (byteAt buf 0).toNat (.dropped 1))) ∧
    (2 ≤ m → byteAt buf 0 = 0x05 → byteAt buf 1 ≠ 0x64 →
      exec .linkDec s = .next (u.endedWith 0x11 1 0x64 (byteAt buf 1).toNat (.dropped 1))) ∧
    ((1 ≤ m → byteAt buf 0 = 0x05) → (2 ≤ m → byteAt buf 1 = 0x64) →
      (m < 10 → exec .linkDec s = .next (u.endedWith 0x10 m 10 m (.dropped 0))) ∧
      (10 ≤ m → hcrc ≠ word16At buf 8 →
        exec .linkDec s = .next (u.endedWith 0x12 8 hcrc.toNat (word16At buf 8).toNat (.dropped 1))) ∧
      (10 ≤ m → hcrc = word16At buf 8 → len < 5 →
        exec .linkDec s = .next (u.endedWith 0x14 2 5 len (.dropped 1))) ∧
      (10 ≤ m → hcrc = word16At buf 8 → 5 ≤ len → m < total →
        exec .linkDec s = .next (u.endedWith 0x10 m total m (.dropped 0))) ∧
      (10 ≤ m → hcrc = word16At buf 8 → 5 ≤ len → total ≤ m →
        (∀ j, j < (n + 15) / 16 → blockBad buf n j → (∀ k, k < j → ¬blockBad buf n k) →
          exec .linkDec s = .next (u.endedWith 0x13 (blockOffset j + blockSize n j)
            (crc16 (slice buf (blockOffset j) (blockSize n j))).toNat
            (word16At buf (blockOffset j + blockSize n j)).toNat (.dropped (BitVec.ofNat 16 total)))) ∧
        ((∀ j, j < (n + 15) / 16 → ¬blockBad buf n j) →
          exec .linkDec s = .next ({ s with
              outBuf := (List.range ((n + 15) / 16)).flatMap (fun j => slice buf (blockOffset j) (blockSize n j))
            }.endedOk (.link (byteAt buf 3) (word16At buf 4) (word16At buf 6) (BitVec.ofNat 16 total))))))

/-- R106: LINK.DEC on a frame LINK.ENC built, with any bytes after it, gives back the header fields and the payload, and
consumes exactly the frame. -/
def Obligations.LinkRoundTrip : Prop :=
  ∀ (a : LinkAddr) (p t : Bytes) (s : State), p.length ≤ 250 →
    ∃ u, exec (.linkEnc a) (s.setIn p) = .next u ∧ u.status = 0x00 ∧
      exec .linkDec (s.setIn (u.outBuf ++ t)) =
        .next ({ s with inBuf := u.outBuf ++ t, outBuf := p }.endedOk
          (.link a.control a.dest a.src (BitVec.ofNat 16 u.outBuf.length)))

/-- R107: one bit of a frame flipped, LINK.DEC ends with BadStart, BadHeaderCrc, or BadBlockCrc for the block the bit is in,
and delivers nothing. -/
def Obligations.LinkSingleBitRejection : Prop :=
  ∀ (a : LinkAddr) (p : Bytes) (s u : State) (k : Nat), p.length ≤ 250 →
    exec (.linkEnc a) (s.setIn p) = .next u → k < 8 * u.outBuf.length →
    ∃ v, exec .linkDec (s.setIn (flipBit u.outBuf k)) = .next v ∧ v.outBuf = [] ∧
      (k / 8 < 2 → v.status = 0x11 ∧ v.errOffset = BitVec.ofNat 16 (k / 8)) ∧
      (2 ≤ k / 8 → k / 8 < 10 → v.status = 0x12) ∧
      (10 ≤ k / 8 → v.status = 0x13 ∧
        v.errOffset = BitVec.ofNat 16 (blockOffset ((k / 8 - 10) / 18) + blockSize p.length ((k / 8 - 10) / 18)))

/-- R102: bytes after what LINK.DEC judged are not looked at. Any ending but Truncated stays the ending when more bytes follow. -/
def Obligations.LinkDecodeIgnoresLaterBytes : Prop :=
  ∀ (s t : State) (b x : Bytes), exec .linkDec (s.setIn b) = .next t → t.status ≠ 0x10 →
    exec .linkDec (s.setIn (b ++ x)) = .next { t with inBuf := b ++ x }

/-- R105: Truncated drops nothing and delivers nothing, and ERR_EXPECTED is more than the host gave and no more than any
extension of it needs to end OK. -/
def Obligations.LinkTruncatedIsRetryable : Prop :=
  ∀ (s t : State) (b : Bytes), exec .linkDec (s.setIn b) = .next t → t.status = 0x10 →
    t.results = .dropped 0 ∧ t.outBuf = [] ∧ b.length < t.errExpected.toNat ∧
    ∀ (x : Bytes) (u : State), exec .linkDec (s.setIn (b ++ x)) = .next u → u.status = 0x00 →
      t.errExpected.toNat ≤ (b ++ x).length

/-! ### The Transport unit -/

/-- R116: the segments of IN in OUT, each behind its length byte, with FIN, FIR and the running sequence number in its header;
TX_SEQ advanced by their number; a segment size outside 1 to 249 refused. -/
def Obligations.TpSegmentation : Prop :=
  ∀ (seg : Byte) (s : State),
    let a := s.inBuf
    let nseg := max 1 ((a.length + seg.toNat - 1) / seg.toNat)
    (seg.toNat < 1 ∨ 249 < seg.toNat →
      exec (.tpSeg seg) s = .next ({ s with outBuf := [] }.endedWith 0x23 0 249 seg.toNat .none)) ∧
    (1 ≤ seg.toNat → seg.toNat ≤ 249 →
      exec (.tpSeg seg) s = .next ({ s with
          outBuf := (List.range nseg).flatMap (fun i =>
            let body := (a.drop (i * seg.toNat)).take seg.toNat
            [BitVec.ofNat 8 (1 + body.length),
              BitVec.ofNat 8 ((if i = nseg - 1 then 128 else 0) + (if i = 0 then 64 else 0)
                + (s.txSeq.toNat + i) % 64)] ++ body)
          txSeq := BitVec.ofNat 6 (s.txSeq.toNat + nseg)
        }.endedOk (.segments (BitVec.ofNat 16 nseg))))

/-- R119 with R118: a segment with FIR = 1 starts a new reassembly whatever its sequence, STALE says whether one was in progress,
and with FIN = 1 it is delivered at once. Of RX_BUF only the payload's offsets, from 0, are written. A segment has at
most 4095 payload bytes (R204). -/
def Obligations.TpReceiveFirstSegment : Prop :=
  ∀ (s : State) (h : Byte) (data : Bytes), s.inBuf = h :: data → h.getLsbD 6 = true → data.length ≤ 4096 →
    let m := s.rxBuf.writeBytes 0 data
    let next := BitVec.ofNat 6 (h.toNat + 1)
    (h.getLsbD 7 = false →
      endsIn .tpRx s ({ s with
        outBuf := [], stale := s.rxActive, rxActive := true, rxLen := BitVec.ofNat 13 data.length, rxExpect := next,
        rxBuf := m }.endedWith 0x01 0 0 0 .none)) ∧
    (h.getLsbD 7 = true →
      endsIn .tpRx s ({ s with
        outBuf := data, stale := s.rxActive, rxActive := false, rxLen := 0, rxExpect := next, rxBuf := m }.endedOk .none)) ∧
    (∀ a, m.read a = if a < data.length then data[a]? else s.rxBuf.read a)

/-- R120, with R118 and what R125 says of delivery: a segment with FIR = 0 and the expected sequence is appended at RX_LEN, and
with FIN = 1 the whole message is delivered. `old` is the message so far. Of RX_BUF only the payload's offsets, from
RX_LEN, are written. -/
def Obligations.TpReceiveNextSegment : Prop :=
  ∀ (s : State) (h : Byte) (data old : Bytes), s.inBuf = h :: data → h.getLsbD 6 = false → s.rxActive = true →
    h.setWidth 6 = s.rxExpect → s.rxBuf.readBytes 0 s.rxLen.toNat = some old →
    s.rxLen.toNat + data.length ≤ 4096 →
    let m := s.rxBuf.writeBytes s.rxLen.toNat data
    let next := BitVec.ofNat 6 (s.rxExpect.toNat + 1)
    (h.getLsbD 7 = false →
      endsIn .tpRx s ({ s with
        outBuf := [], stale := false, rxLen := BitVec.ofNat 13 (s.rxLen.toNat + data.length), rxExpect := next,
        rxBuf := m }.endedWith 0x01 0 0 0 .none)) ∧
    (h.getLsbD 7 = true →
      endsIn .tpRx s ({ s with
        outBuf := old ++ data, stale := false, rxActive := false, rxLen := 0, rxExpect := next,
        rxBuf := m }.endedOk .none)) ∧
    (∀ a, m.read a =
      if s.rxLen.toNat ≤ a ∧ a < s.rxLen.toNat + data.length then data[a - s.rxLen.toNat]? else s.rxBuf.read a)

/-- R121 and R122, with R118 and what R124 says of a segment past the capacity: NoFir, SequenceMismatch and Overflow, with all
that each changes. -/
def Obligations.TpReceiveRefusals : Prop :=
  ∀ (s : State) (h : Byte) (data : Bytes), s.inBuf = h :: data → h.getLsbD 6 = false →
    (s.rxActive = false →
      exec .tpRx s = .next ({ s with outBuf := [], stale := false }.endedWith 0x21 0 0 h.toNat .none)) ∧
    (s.rxActive = true → h.setWidth 6 ≠ s.rxExpect →
      exec .tpRx s = .next ({ s with outBuf := [], stale := false, rxActive := false, rxLen := 0 }.endedWith 0x20 0
        s.rxExpect.toNat (h.toNat % 64) .none)) ∧
    (s.rxActive = true → h.setWidth 6 = s.rxExpect → 4096 < s.rxLen.toNat + data.length →
      exec .tpRx s = .next ({ s with outBuf := [], stale := false, rxActive := false, rxLen := 0 }.endedWith 0x22 0
        4096 (s.rxLen.toNat + data.length) .none))

/-- R123: an empty payload is no segment. STALE is cleared and OUT emptied; a reassembly in progress stays. -/
def Obligations.TpLinkOnly : Prop :=
  ∀ s : State, s.inBuf = [] →
    endsIn .tpRx s ({ s with outBuf := [], stale := false }.endedWith 0x02 0 0 0 .none)

/-- R126 and R232: TP.RST. -/
def Obligations.TpReset : Prop :=
  ∀ s : State,
    endsIn .tpRst s
      ({ s with txSeq := 0, rxActive := false, rxExpect := 0, rxLen := 0, stale := false }.endedOk .none)

/-- R127 items 1 and 2: the segments TP.SEG makes of a fragment, fed to TP.RX in order at a receiver in any state, give Pending
for each but the last and the whole fragment with OK for the last; STALE is 1 after the first exactly where a reassembly
was in progress. -/
def Obligations.TpRoundTrip : Prop :=
  ∀ (s : State) (a : Bytes) (seg : Byte), a.length ≤ 4096 → 1 ≤ seg.toNat → seg.toNat ≤ 249 →
    ∃ (u : State) (segs : List Bytes), exec (.tpSeg seg) (s.setIn a) = .next u ∧
      u.outBuf = segs.flatMap (fun x => BitVec.ofNat 8 x.length :: x) ∧
      u.results = .segments (BitVec.ofNat 16 segs.length) ∧
      segs.length = max 1 ((a.length + seg.toNat - 1) / seg.toNat) ∧
      (∀ x ∈ segs, 1 ≤ x.length ∧ x.length ≤ 250) ∧
      ∀ r : State,
        (∀ k, 0 < k → k < segs.length →
          ∃ v, feed (segs.take k) r = .next v ∧ v.status = 0x01 ∧ v.stale = (r.rxActive && k == 1)) ∧
        ∃ v, feed segs r = .next v ∧ v.status = 0x00 ∧ v.outBuf = a ∧ v.rxActive = false ∧
          v.stale = (r.rxActive && segs.length == 1)

/-- R127 item 3: an empty payload before any other payload of a sequence changes nothing of what follows. Whole states are
compared: that the named results agree too is log entry 4. -/
def Obligations.TpLinkOnlyInvisible : Prop :=
  ∀ (s : State) (before after : List Bytes) (p : Bytes),
    feed (before ++ [] :: p :: after) s = feed (before ++ p :: after) s

/-- R127 item 4: a segment of a message in progress with another sequence number gives SequenceMismatch, and every later segment
up to the next FIR gives NoFir; none gives OK or any byte. -/
def Obligations.TpMismatchLosesMessage : Prop :=
  ∀ (s : State) (h : Byte) (d : Bytes) (ps : List Bytes), s.rxActive = true → h.getLsbD 6 = false →
    h.setWidth 6 ≠ s.rxExpect → (∀ p ∈ ps, p ≠ [] ∧ startsMessage p = false) →
    ∀ k, k ≤ ps.length →
      ∃ v, feed ((h :: d) :: ps.take k) s = .next v ∧ v.status = (if k = 0 then 0x20 else 0x21) ∧
        v.outBuf = [] ∧ v.rxActive = false ∧ v.rxLen = 0

/-- R127 item 5: a fragment TP.RX delivers is the payloads of one message in order: from the last segment with FIR = 1 on,
whatever was fed before it, from any state with no reassembly in progress. -/
def Obligations.TpNeverMixesMessages : Prop :=
  ∀ (s t : State) (ps : List Bytes), s.rxActive = false → feed ps s = .next t → ps ≠ [] → t.status = 0x00 →
    ∃ (before : List Bytes) (first : Bytes) (later : List Bytes), ps = before ++ first :: later ∧
      startsMessage first = true ∧ (∀ p ∈ later, startsMessage p = false) ∧
      t.outBuf = (first :: later).flatMap segmentPayload

/-- R67, SEND and RECV below the Application unit: a fragment segmented by TP.SEG, each segment framed by LINK.ENC, the frames
parsed by LINK.DEC and fed to TP.RX at a receiver in any state, comes out whole. -/
def Obligations.StackRoundTrip : Prop :=
  ∀ (s r : State) (a : Bytes) (seg : Byte) (addr : LinkAddr), a.length ≤ 4096 → 1 ≤ seg.toNat → seg.toNat ≤ 249 →
    ∃ (u : State) (segs frames : List Bytes), exec (.tpSeg seg) (s.setIn a) = .next u ∧
      u.outBuf = segs.flatMap (fun x => BitVec.ofNat 8 x.length :: x) ∧ (∀ x ∈ segs, 1 ≤ x.length ∧ x.length ≤ 250) ∧
      List.Forall₂ (fun x f => ∀ q : State, ∃ w, exec (.linkEnc addr) (q.setIn x) = .next w ∧ w.status = 0x00 ∧
        w.outBuf = f) segs frames ∧
      ∃ v, receiveFrames frames r = .next v ∧ v.status = 0x00 ∧ v.outBuf = a

/-! ### The Application unit: encoders -/

/-- R141 with R138: APP.ENC.READ. -/
def Obligations.AppReadEncodes : Prop :=
  ∀ a : ReadArgs, encodesRequest (.appEncRead a) [controlByte true true a.con false a.seq, 0x01] a.blocks

/-- R142 and R144: APP.ENC.WRITE and APP.ENC.RESP make the same checks and differ in the header they emit. -/
def Obligations.AppWriteAndRespEncode : Prop :=
  (∀ (func : Byte) (a : WriteArgs),
    encodesBlocks (.appEncWrite func a) [controlByte true true a.con false a.seq, func] a.blocks) ∧
    (∀ a : RespArgs,
      encodesBlocks (.appEncResp a)
        [controlByte a.ctrl.fir a.ctrl.fin a.ctrl.con a.ctrl.uns a.ctrl.seq, 0x81, a.iin1, a.iin2] a.blocks)

/-- R143: APP.ENC.CONFIRM. -/
def Obligations.AppConfirmEncodes : Prop :=
  ∀ (a : ConfirmArgs) (s : State),
    endsIn (.appEncConfirm a) s
      ({ s with outBuf := [controlByte true true false a.uns a.seq, 0x00] }.endedOk .none)

/-- R138, R139, R61, R62: the bytes of a data block of every kind and form an encoder accepts. -/
def Obligations.DataBlockBytes : Prop :=
  ∀ (g v : Byte) (d : Descriptor), lookupObj g v = some d →
    (∀ e : PointEntry,
      let value := (List.range d.vbytes).map (fun k => e.raw.extractLsb' (8 * k) 8)
      (d.kind = .boolflag →
        encPoint d e = [BitVec.ofNat 8 (e.flags.toNat % 128 + if e.raw.getLsbD 0 then 128 else 0)]) ∧
      (d.kind = .int ∨ d.kind = .float →
        (d.flagPos = .none → encPoint d e = value) ∧
        (d.flagPos = .before → encPoint d e = e.flags :: value) ∧
        (d.flagPos = .after → encPoint d e = value ++ [e.flags]))) ∧
    (∀ (idx : List U16) (points : List PointEntry), d.kind ≠ .packed → points.length = idx.length →
      encDataBlock ⟨g, v, .index idx, points⟩ = [g, v, 0x28] ++ le16 (BitVec.ofNat 16 idx.length) ++
        (idx.zip points).flatMap (fun x => le16 x.1 ++ encPoint d x.2)) ∧
    (∀ (start stop : U16) (points : List PointEntry), start.toNat ≤ stop.toNat →
      points.length = stop.toNat - start.toNat + 1 →
      let head := if stop.toNat ≤ 255 then [g, v, 0x00, start.extractLsb' 0 8, stop.extractLsb' 0 8]
        else [g, v, 0x01] ++ le16 start ++ le16 stop
      (d.kind ≠ .packed → encDataBlock ⟨g, v, .range start stop, points⟩ = head ++ points.flatMap (encPoint d)) ∧
      (d.kind = .packed → encDataBlock ⟨g, v, .range start stop, points⟩ = head ++
        (List.range ((points.length + 7) / 8)).map (fun j => BitVec.ofNat 8
          ((List.range 8).map (fun k =>
            if (points[8 * j + k]?.map (fun e => e.raw.getLsbD 0)).getD false then 2 ^ k else 0)).sum)))

/-! ### The Application unit: the decoder -/

/-- R156: APP.DEC on what APP.ENC.RESP built for blocks it accepts gives back the control bits, the indications and one record
for each entry, in order. The fields `flags` and `online` of a PACKED record, 0 and false, are log entry 7's, not R156's. -/
def Obligations.AppRoundTrip : Prop :=
  ∀ (a : RespArgs) (s t : State), exec (.appEncResp a) s = .next t → t.status = 0x00 →
    exec .appDec (t.setIn t.outBuf) =
      .next ({ t with inBuf := t.outBuf, pts := a.blocks.flatMap blockRecords }.endedOk
        (.fragment ⟨a.ctrl, 0x81, .response, true, a.iin1, a.iin2,
          BitVec.ofNat 16 (a.iin1.toNat + 256 * a.iin2.toNat)⟩))

/-- R145 to R150: APP.DEC on the header of a RESPONSE or a CONFIRM followed by any complete object blocks ends OK with the
header results and the records of the blocks, block after block. `BlockReads` is every such block: PACKED data with any
padding (R62), two-byte bounds also where one byte would do (R186). What an encoder writes for a block it accepts is one
of them, and so is every point of the right size. The fields `flags` and `online` of a PACKED record, 0 and false, are
log entry 7's. -/
def Obligations.AppDecDecodesFragment : Prop :=
  (∀ (s : State) (apc iin1 iin2 : Byte) (blocks : List (Bytes × List PointRec)),
    (∀ b ∈ blocks, BlockReads b.1 b.2) →
    (s.inBuf = [apc, 0x81, iin1, iin2] ++ blocks.flatMap Prod.fst →
      exec .appDec s = .next ({ s with pts := blocks.flatMap Prod.snd }.endedOk (responseResults apc iin1 iin2))) ∧
    (s.inBuf = [apc, 0x00] ++ blocks.flatMap Prod.fst →
      exec .appDec s = .next ({ s with pts := blocks.flatMap Prod.snd }.endedOk (confirmResults apc)))) ∧
  (∀ b : DataBlock, blockAccepted b → b.form.fits = true → BlockReads (encDataBlock b) (blockRecords b)) ∧
  (∀ (g v : Byte) (d : Descriptor) (bs : Bytes), lookupObj g v = some d → d.kind ≠ .packed → bs.length = pointSize d →
    ∃ e, encPoint d e = bs)

/-- R146 to R149 with R153: every error of APP.DEC, with the offset and the values it records. The object blocks before the
bad one are any complete blocks (`BlockReads`), after the header of a RESPONSE or of a CONFIRM; `rest` begins where the
bad block's group byte stands or is missing. -/
def Obligations.AppDecReportsFirstError : Prop :=
  (∀ s : State, s.inBuf.length < 2 →
    exec .appDec s = .next ({ s with pts := [] }.endedWith 0x31 s.inBuf.length 2 s.inBuf.length .none)) ∧
  (∀ (s : State) (apc fc : Byte) (rest : Bytes), s.inBuf = apc :: fc :: rest → fc ≠ 0x81 → fc ≠ 0x00 →
    exec .appDec s = .next ({ s with pts := [] }.endedWith 0x33 1 0x81 fc.toNat .none)) ∧
  (∀ (s : State) (apc : Byte) (rest : Bytes), s.inBuf = apc :: 0x81 :: rest → rest.length < 2 →
    exec .appDec s = .next ({ s with pts := [] }.endedWith 0x31 2 2 rest.length .none)) ∧
  ∀ (s : State) (apc iin1 iin2 : Byte) (head : Bytes) (blocks : List Bytes) (rest : Bytes),
    head = [apc, 0x81, iin1, iin2] ∨ head = [apc, 0x00] →
    (∀ b ∈ blocks, ∃ ps, BlockReads b ps) →
    s.inBuf = head ++ blocks.flatten ++ rest →
    let hoff := head.length + blocks.flatten.length
    let failed := fun code offset expected actual =>
      exec .appDec s = .next ({ s with pts := [] }.endedWith code offset expected actual .none)
    (1 ≤ rest.length → rest.length < 3 → failed 0x31 hoff 3 rest.length) ∧
    ∀ (g v q : Byte) (r : Bytes), rest = g :: v :: q :: r →
      (lookupObj g v = none → failed 0x30 hoff 0 (g.toNat * 256 + v.toNat)) ∧
      ∀ d, lookupObj g v = some d →
        (q ≠ 0x00 → q ≠ 0x01 → q ≠ 0x28 → failed 0x32 (hoff + 2) 0 q.toNat) ∧
        (q = 0x00 → r.length < 2 → failed 0x31 (hoff + 3) 2 r.length) ∧
        (q = 0x01 → r.length < 4 → failed 0x31 (hoff + 3) 4 r.length) ∧
        (q = 0x28 → r.length < 2 → failed 0x31 (hoff + 3) 2 r.length) ∧
        (∀ (start stop : Byte) (data : Bytes), q = 0x00 → r = start :: stop :: data →
          (stop.toNat < start.toNat → failed 0x32 (hoff + 3) start.toNat stop.toNat) ∧
          (start.toNat ≤ stop.toNat →
            let count := stop.toNat - start.toNat + 1
            (d.kind = .packed → data.length < (count + 7) / 8 →
              failed 0x31 (hoff + 5) ((count + 7) / 8) data.length) ∧
            (d.kind ≠ .packed → data.length < count * pointSize d →
              failed 0x31 (hoff + 5 + data.length / pointSize d * pointSize d) (pointSize d)
                (data.length % pointSize d)))) ∧
        (∀ (start stop : U16) (data : Bytes), q = 0x01 → r = le16 start ++ le16 stop ++ data →
          (stop.toNat < start.toNat → failed 0x32 (hoff + 3) start.toNat stop.toNat) ∧
          (start.toNat ≤ stop.toNat →
            let count := stop.toNat - start.toNat + 1
            (d.kind = .packed → data.length < (count + 7) / 8 →
              failed 0x31 (hoff + 7) ((count + 7) / 8) data.length) ∧
            (d.kind ≠ .packed → data.length < count * pointSize d →
              failed 0x31 (hoff + 7 + data.length / pointSize d * pointSize d) (pointSize d)
                (data.length % pointSize d)))) ∧
        (∀ (count : U16) (data : Bytes), q = 0x28 → r = le16 count ++ data →
          (d.kind = .packed → failed 0x32 (hoff + 2) 0 0x28) ∧
          (d.kind ≠ .packed → data.length < count.toNat * (2 + pointSize d) →
            failed 0x31 (hoff + 5 + data.length / (2 + pointSize d) * (2 + pointSize d)) (2 + pointSize d)
              (data.length % (2 + pointSize d))))

/-- R152: APP.DEC gives a full result or an error, never both. -/
def Obligations.AppDecAllOrNothing : Prop :=
  ∀ s t : State, exec .appDec s = .next t →
    (t.status = 0x00 ∧ ∃ h, t.results = .fragment h) ∨
      (0x30 ≤ t.status.toNat ∧ t.pts = [] ∧ t.npts = 0 ∧ t.results = .none)

/-- R150, R151: every record APP.DEC leaves in PTS is of a known object and agrees with its descriptor; its number is the one its
bits say, signed where the descriptor is, and in the range the rule gives. That `flags` is 0 in a PACKED record is log
entry 7. -/
def Obligations.DecodedPointsAgreeWithTable : Prop :=
  ∀ s t : State, exec .appDec s = .next t → ∀ p ∈ t.pts,
    ∃ d, lookupObj p.group p.variation = some d ∧ p.ptype = d.ptype ∧ p.kind = d.kind ∧
      (p.value = none ↔ p.kind = .float) ∧
      (∀ x, p.value = some x → -2147483648 ≤ x ∧ x ≤ 4294967295) ∧
      (p.kind = .packed ∨ p.kind = .boolflag → p.raw.toNat ≤ 1 ∧ p.value = some (p.raw.toNat : Int)) ∧
      (p.kind = .int ∨ p.kind = .float → p.raw.toNat < 2 ^ (8 * d.vbytes)) ∧
      (p.kind = .int → p.value = some
        (if d.signed = true ∧ 2 ^ (8 * d.vbytes - 1) ≤ p.raw.toNat then (p.raw.toNat : Int) - 2 ^ (8 * d.vbytes)
         else (p.raw.toNat : Int))) ∧
      (p.hasFlags = true ↔ d.flagPos ≠ .none) ∧
      (p.hasOnline = true ↔ p.hasFlags = true ∧ d.flagRole = .quality) ∧
      p.online = (p.hasOnline && p.flags.getLsbD 0) ∧ (p.hasFlags = false → p.flags = 0)

/-- R60: the object table, row by row (group, variation, point type, kind, value bytes, signed, flag position, flag role,
size), none of them big-endian, and nothing else. -/
def Obligations.ObjectTable : Prop :=
  let rows : List (Byte × Byte × PType × Kind × Nat × Bool × FlagPos × FlagRole × Nat) :=
    [(1, 1, .bi, .packed, 0, false, .none, .none, 0), (1, 2, .bi, .boolflag, 0, false, .inByte, .quality, 1),
     (10, 1, .bo, .packed, 0, false, .none, .none, 0), (10, 2, .bo, .boolflag, 0, false, .inByte, .quality, 1),
     (20, 1, .ctr, .int, 4, false, .before, .quality, 5), (20, 2, .ctr, .int, 2, false, .before, .quality, 3),
     (20, 5, .ctr, .int, 4, false, .none, .none, 4), (20, 6, .ctr, .int, 2, false, .none, .none, 2),
     (30, 1, .ai, .int, 4, true, .before, .quality, 5), (30, 2, .ai, .int, 2, true, .before, .quality, 3),
     (30, 3, .ai, .int, 4, true, .none, .none, 4), (30, 4, .ai, .int, 2, true, .none, .none, 2),
     (30, 5, .ai, .float, 4, false, .before, .quality, 5), (30, 6, .ai, .float, 8, false, .before, .quality, 9),
     (40, 1, .ao, .int, 4, true, .before, .quality, 5), (40, 2, .ao, .int, 2, true, .before, .quality, 3),
     (40, 3, .ao, .float, 4, false, .before, .quality, 5), (40, 4, .ao, .float, 8, false, .before, .quality, 9),
     (41, 1, .aoc, .int, 4, true, .after, .status, 5), (41, 2, .aoc, .int, 2, true, .after, .status, 3),
     (41, 3, .aoc, .float, 4, false, .after, .status, 5), (41, 4, .aoc, .float, 8, false, .after, .status, 9)]
  (∀ x ∈ rows, ∃ d, lookupObj x.1 x.2.1 = some d ∧
    (d.ptype, d.kind, d.vbytes, d.signed, d.flagPos, d.flagRole, pointSize d) = x.2.2 ∧ d.bigEndian = false) ∧
  ∀ g v : Byte, (∀ x ∈ rows, ¬(g = x.1 ∧ v = x.2.1)) → lookupObj g v = none

/-! ### The wire items of the opcode table (log entry 2): what each does when it is built and when it is parsed -/

/-- LNK (R49): LINK.ENC writes the ten bytes of the header, LINK.DEC reads them, whatever they hold. -/
def Obligations.LinkHeaderItem : Prop :=
  (∀ (a : LinkAddr) (s : State), exec (.lnk (.build a)) s = exec (.linkEnc a) s) ∧
  (∀ (a : LinkAddr) (s : State), s.inBuf.length ≤ 250 →
    ∃ t, endsIn (.lnk (.build a)) s ({ s with outBuf := t }.endedOk .none) ∧
      let body := [BitVec.ofNat 8 (5 + s.inBuf.length), a.control] ++ le16 a.dest ++ le16 a.src
      t.take 10 = [0x05, 0x64] ++ body ++ le16 (crc16 body)) ∧
  (∀ (a : LinkAddr) (s : State), 250 < s.inBuf.length →
    exec (.lnk (.build a)) s = .next ({ s with outBuf := [] }.endedWith 0x15 0 250 s.inBuf.length .none)) ∧
  (∀ (p : LnkParse) (s : State),
    let f := [p.start0, p.start1, p.length, p.control] ++ le16 p.dest ++ le16 p.src ++ le16 p.hcrc ++ p.tail
    exec (.lnk (.parse p)) s = exec .linkDec { s with inBuf := f } ∧ (∃ t, exec (.lnk (.parse p)) s = .next t) ∧
    (p.start0 = 0x05 → p.start1 = 0x64 → p.length = 5 →
      p.hcrc = crc16 ([0x05, p.control] ++ le16 p.dest ++ le16 p.src) →
      exec (.lnk (.parse p)) s =
        .next ({ s with inBuf := f, outBuf := [] }.endedOk (.link p.control p.dest p.src 10))))

/-- BLK (R50): 1 to 16 payload bytes and their CRC, in a frame of one block. -/
def Obligations.DataBlockItem : Prop :=
  (∀ (b : BlkBuild) (s : State), 1 ≤ b.payload.length → b.payload.length ≤ 16 →
    let body := [BitVec.ofNat 8 (5 + b.payload.length), b.addr.control] ++ le16 b.addr.dest ++ le16 b.addr.src
    let f := [0x05, 0x64] ++ body ++ le16 (crc16 body) ++ b.payload ++ le16 (crc16 b.payload)
    endsIn (.blk (.build b)) s ({ s with inBuf := b.payload, outBuf := f }.endedOk .none)) ∧
  (∀ (p : BlkParse) (s : State), 1 ≤ p.payload.length → p.payload.length ≤ 16 →
    let n := p.payload.length
    let body := [BitVec.ofNat 8 (5 + n), p.addr.control] ++ le16 p.addr.dest ++ le16 p.addr.src
    let f := [0x05, 0x64] ++ body ++ le16 (crc16 body) ++ p.payload ++ le16 p.bcrc
    (p.bcrc = crc16 p.payload →
      exec (.blk (.parse p)) s = .next ({ s with inBuf := f, outBuf := p.payload }.endedOk
        (.link p.addr.control p.addr.dest p.addr.src (BitVec.ofNat 16 (12 + n))))) ∧
    (p.bcrc ≠ crc16 p.payload →
      exec (.blk (.parse p)) s = .next ({ s with inBuf := f, outBuf := [] }.endedWith 0x13 (10 + n)
        (crc16 p.payload).toNat p.bcrc.toNat (.dropped (BitVec.ofNat 16 (12 + n))))))

/-- TPH (R52): built before each segment by TP.SEG, read by TP.RX; all 256 values are legal headers. -/
def Obligations.TransportHeaderItem : Prop :=
  (∀ (seg : Byte) (s : State), exec (.tph (.build seg)) s = exec (.tpSeg seg) s) ∧
  (∀ (seg : Byte) (s : State), 1 ≤ seg.toNat → seg.toNat ≤ 249 → s.inBuf.length ≤ seg.toNat →
    exec (.tph (.build seg)) s = .next ({ s with
      outBuf := [BitVec.ofNat 8 (1 + s.inBuf.length), BitVec.ofNat 8 (128 + 64 + s.txSeq.toNat)] ++ s.inBuf,
      txSeq := s.txSeq + 1 }.endedOk (.segments 1))) ∧
  (∀ (p : TphParse) (s : State),
    let header := BitVec.ofNat 8 ((if p.fin then 128 else 0) + (if p.fir then 64 else 0) + p.seq.toNat)
    exec (.tph (.parse p)) s = exec .tpRx { s with inBuf := header :: p.data }) ∧
  (∀ (seq : BitVec 6) (data : Bytes) (s : State), data.length ≤ 4095 →
    endsIn (.tph (.parse ⟨true, true, seq, data⟩)) s ({ s with
      inBuf := BitVec.ofNat 8 (128 + 64 + seq.toNat) :: data, outBuf := data, stale := s.rxActive, rxActive := false,
      rxLen := 0, rxExpect := seq + 1, rxBuf := s.rxBuf.writeBytes 0 data }.endedOk .none))

/-- APC and IIN (R53, R55): all their values are legal; written by APP.ENC.RESP, reported by APP.DEC, the control byte of a
RESPONSE and of a CONFIRM alike. -/
def Obligations.ControlAndIndicationItems : Prop :=
  (∀ a : RespArgs,
    let head := [controlByte a.ctrl.fir a.ctrl.fin a.ctrl.con a.ctrl.uns a.ctrl.seq, 0x81, a.iin1, a.iin2]
    encodesBlocks (.apc (.build a)) head a.blocks ∧ encodesBlocks (.iin (.build a)) head a.blocks) ∧
  (∀ (p : ApcParse) (s : State),
    let b := controlByte p.ctrl.fir p.ctrl.fin p.ctrl.con p.ctrl.uns p.ctrl.seq
    exec (.apc (.parse p)) s = exec .appDec { s with inBuf := b :: p.tail } ∧
    (∀ iin1 iin2, p.tail = [0x81, iin1, iin2] → exec (.apc (.parse p)) s =
      .next ({ s with inBuf := b :: p.tail, pts := [] }.endedOk (.fragment ⟨p.ctrl, 0x81, .response, true, iin1, iin2,
        BitVec.ofNat 16 (iin1.toNat + 256 * iin2.toNat)⟩))) ∧
    (p.tail = [0x00] → exec (.apc (.parse p)) s =
      .next ({ s with inBuf := b :: p.tail, pts := [] }.endedOk (.fragment ⟨p.ctrl, 0x00, .confirm, false, 0, 0, 0⟩)))) ∧
  (∀ (p : IinParse) (s : State),
    let f := [p.apc, 0x81, p.iin1, p.iin2] ++ p.tail
    exec (.iin (.parse p)) s = exec .appDec { s with inBuf := f } ∧
    (p.tail = [] → exec (.iin (.parse p)) s =
      .next ({ s with inBuf := f, pts := [] }.endedOk (responseResults p.apc p.iin1 p.iin2))))

/-- R191 to R195 and R197: the request codes and every other code. Built, the code is the fragment's second byte; parsed, APP.DEC
refuses it whatever stands around it. -/
def Obligations.RequestFunctionCodes : Prop :=
  (∀ a : ReadArgs, encodesRequest (.fcRead (.build a)) [controlByte true true a.con false a.seq, 0x01] a.blocks) ∧
  (∀ (a : WriteArgs) (code : Byte),
    let head := fun fc : Byte => [controlByte true true a.con false a.seq, fc]
    encodesBlocks (.fcWrite (.build a)) (head 0x02) a.blocks ∧
    encodesBlocks (.fcSelect (.build a)) (head 0x03) a.blocks ∧
    encodesBlocks (.fcOperate (.build a)) (head 0x04) a.blocks ∧
    encodesBlocks (.fcDirectOperate (.build a)) (head 0x05) a.blocks ∧
    encodesBlocks (.fcOther code (.build a)) (head code) a.blocks) ∧
  (∀ (p : FcParse) (s : State) (code : Byte),
    let refused := fun (i : Instr) (fc : Byte) => exec i s =
      .next ({ s with inBuf := p.apc :: fc :: p.tail, pts := [] }.endedWith 0x33 1 0x81 fc.toNat .none)
    refused (.fcRead (.parse p)) 0x01 ∧ refused (.fcWrite (.parse p)) 0x02 ∧ refused (.fcSelect (.parse p)) 0x03 ∧
    refused (.fcOperate (.parse p)) 0x04 ∧ refused (.fcDirectOperate (.parse p)) 0x05 ∧
    ((0x06 ≤ code.toNat ∧ code.toNat ≤ 0x80) ∨ (0x82 ≤ code.toNat ∧ code.toNat ≤ 0xFF) →
      refused (.fcOther code (.parse p)) code))

/-- R190 and R196: CONFIRM has no indications and its objects start at offset 2; RESPONSE has two and its objects start at
offset 4. Any complete object block at that offset is read there (of a PACKED one, `flags` and `online` are log entry
7's). -/
def Obligations.ConfirmAndResponseCodes : Prop :=
  (∀ (a : ConfirmArgs) (s : State), endsIn (.fcConfirm (.build a)) s
    ({ s with outBuf := [controlByte true true false a.uns a.seq, 0x00] }.endedOk .none)) ∧
  (∀ a : RespArgs, encodesBlocks (.fcResponse (.build a))
    [controlByte a.ctrl.fir a.ctrl.fin a.ctrl.con a.ctrl.uns a.ctrl.seq, 0x81, a.iin1, a.iin2] a.blocks) ∧
  (∀ (p : FcParse) (s : State),
    exec (.fcConfirm (.parse p)) s = exec .appDec { s with inBuf := p.apc :: 0x00 :: p.tail } ∧
    exec (.fcResponse (.parse p)) s = exec .appDec { s with inBuf := p.apc :: 0x81 :: p.tail }) ∧
  (∀ (apc : Byte) (block : Bytes) (ps : List PointRec) (s : State), BlockReads block ps →
    exec (.fcConfirm (.parse ⟨apc, []⟩)) s =
      .next ({ s with inBuf := [apc, 0x00], pts := [] }.endedOk (confirmResults apc)) ∧
    exec (.fcConfirm (.parse ⟨apc, block⟩)) s =
      .next ({ s with inBuf := apc :: 0x00 :: block, pts := ps }.endedOk (confirmResults apc))) ∧
  (∀ (apc iin1 iin2 : Byte) (block : Bytes) (ps : List PointRec) (s : State), BlockReads block ps →
    exec (.fcResponse (.parse ⟨apc, [iin1, iin2]⟩)) s =
      .next ({ s with inBuf := [apc, 0x81, iin1, iin2], pts := [] }.endedOk (responseResults apc iin1 iin2)) ∧
    exec (.fcResponse (.parse ⟨apc, iin1 :: iin2 :: block⟩)) s =
      .next ({ s with inBuf := apc :: 0x81 :: iin1 :: iin2 :: block, pts := ps }.endedOk
        (responseResults apc iin1 iin2))) ∧
  (∀ (p : FcParse) (s : State), p.tail.length < 2 → exec (.fcResponse (.parse p)) s =
    .next ({ s with inBuf := p.apc :: 0x81 :: p.tail, pts := [] }.endedWith 0x31 2 2 p.tail.length .none))

/-- R185 and R186: the two range qualifiers. Built, the READ of the range: RANGE16 with a stop of at most 255 is sent as RANGE8
(R138), a range that runs backwards is EncBadForm. Parsed, the records of the range in rising index order, RANGE16 also
where one byte would have done; a range that runs backwards is BadQualifier at the range field. The fields `flags` and
`online` of a PACKED record are log entry 7's. -/
def Obligations.RangeQualifiers : Prop :=
  (∀ b : Range8Build, encodesRequest (.qualRange8 (.build b))
    [controlByte true true b.block.con false b.block.seq, 0x01]
    [⟨b.block.group, b.block.variation, .range (b.start.setWidth 16) (b.stop.setWidth 16)⟩]) ∧
  (∀ b : Range16Build, encodesRequest (.qualRange16 (.build b))
    [controlByte true true b.block.con false b.block.seq, 0x01]
    [⟨b.block.group, b.block.variation, .range b.start b.stop⟩]) ∧
  (∀ (p : QualParse) (s : State), ∀ x ∈ [(Instr.qualRange8 (.parse p), (0x00 : Byte)), (.qualRange16 (.parse p), 0x01)],
    let f := [p.ctx.apc, 0x81, p.ctx.iin1, p.ctx.iin2, p.group, p.variation, x.2] ++ p.tail
    exec x.1 s = exec .appDec { s with inBuf := f } ∧
    ∀ ps, BlockReads ([p.group, p.variation, x.2] ++ p.tail) ps →
      exec x.1 s = .next ({ s with inBuf := f, pts := ps }.endedOk (responseResults p.ctx.apc p.ctx.iin1 p.ctx.iin2))) ∧
  (∀ (c : ObjCtx) (g v : Byte) (d : Descriptor) (start stop : U16) (data : Bytes) (s : State),
    lookupObj g v = some d → stop.toNat < start.toNat →
    let refused := fun (q : Byte) (tail : Bytes) =>
      { s with inBuf := [c.apc, 0x81, c.iin1, c.iin2, g, v, q] ++ tail, pts := [] }.endedWith 0x32 7
        start.toNat stop.toNat .none
    let tail8 := [start.extractLsb' 0 8, stop.extractLsb' 0 8] ++ data
    let tail16 := le16 start ++ le16 stop ++ data
    (start.toNat ≤ 255 → exec (.qualRange8 (.parse ⟨c, g, v, tail8⟩)) s = .next (refused 0x00 tail8)) ∧
    exec (.qualRange16 (.parse ⟨c, g, v, tail16⟩)) s = .next (refused 0x01 tail16))

/-- R187 and the last case of R148: ALL asks for every point of a group, and no response may hold it; nor any code that is none
of the four. Under an unknown object every qualifier, known or not, is UnknownObject (R147). -/
def Obligations.AllAndOtherQualifiers : Prop :=
  (∀ b : QualBuild, encodesRequest (.qualAll (.build b)) [controlByte true true b.con false b.seq, 0x01]
    [⟨b.group, b.variation, .all⟩]) ∧
  (∀ (p : QualParse) (d : Descriptor) (q : Byte) (s : State), lookupObj p.group p.variation = some d →
    let refused := fun (q : Byte) =>
      { s with inBuf := [p.ctx.apc, 0x81, p.ctx.iin1, p.ctx.iin2, p.group, p.variation, q] ++ p.tail,
               pts := [] }.endedWith 0x32 6 0 q.toNat .none
    exec (.qualAll (.parse p)) s = .next (refused 0x06) ∧
    (q ∉ qualifierCodes → exec (.qualOther q p) s = .next (refused q))) ∧
  (∀ (p : QualParse) (q : Byte) (s : State), lookupObj p.group p.variation = none →
    ∀ x ∈ [(Instr.qualRange8 (.parse p), (0x00 : Byte)), (.qualRange16 (.parse p), 0x01), (.qualAll (.parse p), 0x06),
        (.qualCountIndex16 (.parse p), 0x28), (.qualOther q p, q)],
      exec x.1 s =
        .next ({ s with inBuf := [p.ctx.apc, 0x81, p.ctx.iin1, p.ctx.iin2, p.group, p.variation, x.2] ++ p.tail,
                        pts := [] }.endedWith 0x30 4 0 (p.group.toNat * 256 + p.variation.toNat) .none))

/-- R188: COUNT_INDEX16. Built, the READ of a list of indices, EncTooLong where the list does not fit a fragment; parsed, a
record for each index in the order they stand; BadQualifier with a PACKED object. -/
def Obligations.CountIndexQualifier : Prop :=
  (∀ b : CountIndexBuild, encodesRequest (.qualCountIndex16 (.build b))
    [controlByte true true b.block.con false b.block.seq, 0x01] [⟨b.block.group, b.block.variation, .index b.idx⟩]) ∧
  (∀ (p : QualParse) (s : State),
    let f := [p.ctx.apc, 0x81, p.ctx.iin1, p.ctx.iin2, p.group, p.variation, 0x28] ++ p.tail
    exec (.qualCountIndex16 (.parse p)) s = exec .appDec { s with inBuf := f } ∧
    (∀ ps, BlockReads ([p.group, p.variation, 0x28] ++ p.tail) ps →
      exec (.qualCountIndex16 (.parse p)) s =
        .next ({ s with inBuf := f, pts := ps }.endedOk (responseResults p.ctx.apc p.ctx.iin1 p.ctx.iin2))) ∧
    (∀ d, lookupObj p.group p.variation = some d → d.kind = .packed → 2 ≤ p.tail.length →
      exec (.qualCountIndex16 (.parse p)) s =
        .next ({ s with inBuf := f, pts := [] }.endedWith 0x32 6 0 0x28 .none)))

/-- R160 to R181: each object row built and parsed. Built, it is the one data block of a write-class request; parsed from any
complete block of the row (PACKED data with any padding, R62), it yields the block's records. The fields `flags` and
`online` of a PACKED record, 0 and false, are log entry 7's: R160 and R162 give `has_flags` and `has_online` alone. -/
def Obligations.ObjectRowItems : Prop :=
  ∀ x ∈ objectRows,
    (∀ b : ObjBuild, encodesBlocks (x.1 (.build b)) [controlByte true true b.con false b.seq, b.func]
      [⟨x.2.1, x.2.2, b.form, b.points⟩]) ∧
    (∀ (p : ObjParse) (s : State),
      let f := [p.ctx.apc, 0x81, p.ctx.iin1, p.ctx.iin2, x.2.1, x.2.2, p.qualifier] ++ p.tail
      exec (x.1 (.parse p)) s = exec .appDec { s with inBuf := f } ∧
      ∀ ps, BlockReads ([x.2.1, x.2.2, p.qualifier] ++ p.tail) ps →
        exec (x.1 (.parse p)) s =
          .next ({ s with inBuf := f, pts := ps }.endedOk (responseResults p.ctx.apc p.ctx.iin1 p.ctx.iin2)))

/-- R147 and R142 for a group and variation that no row has: UnknownObject when parsed, EncUnknownObject when built. -/
def Obligations.UnknownObjectItem : Prop :=
  ∀ (g v : Byte), (∀ x ∈ objectRows, x.2 ≠ (g, v)) →
    (∀ (b : ObjBuild) (s : State), exec (.objOther g v (.build b)) s =
      .next ({ s with outBuf := [] }.endedWith 0x38 0 0 (g.toNat * 256 + v.toNat) .none)) ∧
    (∀ (p : ObjParse) (s : State), exec (.objOther g v (.parse p)) s =
      .next ({ s with inBuf := [p.ctx.apc, 0x81, p.ctx.iin1, p.ctx.iin2, g, v, p.qualifier] ++ p.tail,
                      pts := [] }.endedWith 0x30 4 0 (g.toNat * 256 + v.toNat) .none))

end
end

