-- ==== Sys2Proof/Laws/Encoding.lean ====
section
/-! SUPPORT. The small lemmas of the bit fields, the byte order, the decoder's last steps and the two ways an operation ends,
for proofs about encodings and next states. -/

namespace Sys2Proof.Machine

/-! ### Bit fields -/

@[simp] theorem tphFin_tphByte (fin fir : Bool) (seq : BitVec 6) : tphFin (tphByte fin fir seq) = fin := by
  revert fin fir seq; decide

@[simp] theorem tphFir_tphByte (fin fir : Bool) (seq : BitVec 6) : tphFir (tphByte fin fir seq) = fir := by
  revert fin fir seq; decide

@[simp] theorem tphSeq_tphByte (fin fir : Bool) (seq : BitVec 6) : tphSeq (tphByte fin fir seq) = seq := by
  revert fin fir seq; decide

/-- The fields of a control byte come back out of it. -/
@[simp] theorem apcBits_apcByte (a : ApcBits) : apcBits (apcByte a) = a := by
  rcases a with ⟨fir, fin, con, uns, seq⟩
  revert fir fin con uns seq; decide

/-- The control byte by its bits as a sum (R53). -/
theorem apcByte_eq_controlByte (a : ApcBits) : apcByte a = controlByte a.fir a.fin a.con a.uns a.seq := by
  rcases a with ⟨fir, fin, con, uns, seq⟩
  revert fir fin con uns seq; decide

theorem requestApc_eq_controlByte (con : Bool) (seq : BitVec 4) : requestApc con seq = controlByte true true con false seq := by
  revert con seq; decide

theorem confirmApc_eq_controlByte (uns : Bool) (seq : BitVec 4) : confirmApc uns seq = controlByte true true false uns seq := by
  revert uns seq; decide

theorem apcBits_eq_controlBits (b : Byte) : apcBits b = controlBits b := rfl

/-! ### Byte order -/

/-- The two bytes of a 16-bit value, low first, put together again. -/
theorem le16_join (v : U16) : ((v.extractLsb' 0 8).setWidth 16 ||| ((v.extractLsb' 8 8).setWidth 16 <<< 8)) = v := by
  ext i hi
  simp only [BitVec.getElem_or, BitVec.getElem_setWidth, BitVec.getElem_shiftLeft, BitVec.getLsbD_extractLsb']
  rcases Nat.lt_or_ge i 8 with h | h
  · simp [h, BitVec.getLsbD_eq_getElem hi]
  · have h1 : i - 8 < 8 := by omega
    have h2 : 8 + (i - 8) = i := by omega
    simp [h1, h2, Nat.not_lt.2 h, BitVec.getLsbD_eq_getElem hi]

@[simp] theorem le16_length (v : U16) : (le16 v).length = 2 := rfl

@[simp] theorem leN_length (n : Nat) (v : U64) : (leN n v).length = n := by
  induction n generalizing v with
  | zero => rfl
  | succ n ih => simp [leN, ih]

/-- A 16-bit value behind a first part stands where it stood without that part. -/
theorem word16At_append (p s : Bytes) (i : Nat) : word16At (p ++ s) (p.length + i) = word16At s i := by
  have at_append (k : Nat) : byteAt (p ++ s) (p.length + k) = byteAt s k := by
    simp [byteAt, List.getD, List.getElem?_append_right]
  rw [word16At, word16At, at_append, Nat.add_assoc, at_append]

@[simp] theorem word16At_le16 (v : U16) (s : Bytes) : word16At (le16 v ++ s) 0 = v := by
  simpa [word16At, byteAt, le16] using le16_join v

/-! ### The last steps of the decoder -/

/-- A well-formed instruction is what its format decodes to. -/
theorem decode_of_decodeFormat {w : Issue} {i : Instr} (h : decodeFormat w = .ok i) (hw : i.WellFormed) :
    decode w = .ok i := by
  unfold decode
  rw [h]
  simp only
  rw [hw]

/-- A pair the object table does not have decodes to the row for every other pair. -/
theorem decodeObj_other {g v : Byte} (h : lookupObj g v = none) (u : ObjUse) : decodeObj g v u = .objOther g v u := by
  have miss : ∀ a b : Byte, lookupObj a b ≠ none → ¬(g = a ∧ v = b) := by
    rintro a b hab ⟨rfl, rfl⟩
    exact hab h
  unfold decodeObj
  rw [if_neg (miss _ _ (by decide)), if_neg (miss _ _ (by decide)), if_neg (miss _ _ (by decide)),
    if_neg (miss _ _ (by decide)), if_neg (miss _ _ (by decide)), if_neg (miss _ _ (by decide)),
    if_neg (miss _ _ (by decide)), if_neg (miss _ _ (by decide)), if_neg (miss _ _ (by decide)),
    if_neg (miss _ _ (by decide)), if_neg (miss _ _ (by decide)), if_neg (miss _ _ (by decide)),
    if_neg (miss _ _ (by decide)), if_neg (miss _ _ (by decide)), if_neg (miss _ _ (by decide)),
    if_neg (miss _ _ (by decide)), if_neg (miss _ _ (by decide)), if_neg (miss _ _ (by decide)),
    if_neg (miss _ _ (by decide)), if_neg (miss _ _ (by decide)), if_neg (miss _ _ (by decide)),
    if_neg (miss _ _ (by decide))]

/-! ### How an operation ends -/

/-- `done OK` in the terms of the statements. -/
theorem State.finish_ok (s : State) (r : Results) : s.finish .ok r = s.endedOk r := rfl

/-- `done S` in the terms of the statements. -/
theorem State.finish_eq (s : State) (d : Done) (r : Results) : s.finish d r = s.endedWith d.code 0 0 0 r := rfl

/-- `fail E` in the terms of the statements. -/
theorem State.failWith_eq (s : State) (f : Fail) (r : Results) :
    s.failWith f r = s.endedWith f.err.code f.offset f.expected f.actual r := rfl

end Sys2Proof.Machine
end

