-- ==== Sys2Proof/Laws/Memory.lean ====
section
/-! SUPPORT. The laws of the RXB memory: read after write, the canonical form and the bound kept by every write, and a run of
bytes read back after it was written. -/

namespace Sys2Proof.Machine

theorem Memory.read_nil (a : Nat) : Memory.read [] a = none := rfl

theorem Memory.read_cons (c : Host.Cell) (m : Memory) (a : Nat) :
    Memory.read (c :: m) a = if c.1 = a then some c.2 else Memory.read m a := by
  unfold Memory.read
  by_cases h : c.1 = a <;> simp [h]

/-- Reading an offset after a write: the byte written, or what was there before. -/
theorem Memory.read_write (m : Memory) (a b : Nat) (x : Byte) :
    (m.write a x).read b = if a = b then some x else m.read b := by
  induction m with
  | nil => simp [Memory.write, Memory.read_cons, Memory.read_nil]
  | cons c m ih =>
    unfold Memory.write
    split
    · simp [Memory.read_cons]
    · split
      · rename_i h
        subst h
        simp only [Memory.read_cons]
        split <;> simp_all
      · rename_i h1 h2
        simp only [Memory.read_cons, ih]
        split
        · rename_i h3
          have : a ≠ b := by omega
          simp [this]
        · rfl

theorem Memory.read_write_same (m : Memory) (a : Nat) (x : Byte) : (m.write a x).read a = some x := by
  simp [Memory.read_write]

theorem Memory.read_write_other (m : Memory) {a b : Nat} (x : Byte) (h : a ≠ b) : (m.write a x).read b = m.read b := by
  simp [Memory.read_write, h]

/-- What stands in a memory after a write was written now or stood there before. -/
theorem Memory.mem_write {m : Memory} {a : Nat} {x : Byte} {c : Host.Cell} (h : c ∈ m.write a x) : c = (a, x) ∨ c ∈ m := by
  induction m with
  | nil => simpa [Memory.write] using h
  | cons d m ih =>
    unfold Memory.write at h
    split at h
    · simpa using h
    · split at h
      · rcases List.mem_cons.1 h with h | h
        · exact .inl h
        · exact .inr (List.mem_cons_of_mem _ h)
      · rcases List.mem_cons.1 h with h | h
        · exact .inr (by simp [h])
        · exact (ih h).imp id (List.mem_cons_of_mem _)

/-- A write keeps the canonical form. -/
theorem Memory.write_wf {m : Memory} (h : m.wf) (a : Nat) (x : Byte) : (m.write a x).wf := by
  induction m with
  | nil => simp [Memory.write]
  | cons c m ih =>
    have h := List.pairwise_cons.1 h
    unfold Memory.write
    split
    · rename_i ha
      refine List.pairwise_cons.2 ⟨fun d hd => ?_, List.pairwise_cons.2 h⟩
      rcases List.mem_cons.1 hd with rfl | hd
      · exact ha
      · exact lt_trans ha (h.1 d hd)
    · split
      · rename_i ha
        exact List.pairwise_cons.2 ⟨fun d hd => by simpa [ha] using h.1 d hd, h.2⟩
      · refine List.pairwise_cons.2 ⟨fun d hd => ?_, ih h.2⟩
        rcases Memory.mem_write hd with rfl | hd
        · simp only; omega
        · exact h.1 d hd

theorem Memory.writeBytes_wf {m : Memory} (h : m.wf) (off : Nat) (bs : Bytes) : (m.writeBytes off bs).wf := by
  induction bs generalizing m off with
  | nil => exact h
  | cons b bs ih => exact ih (Memory.write_wf h off b) (off + 1)

theorem Memory.reset_wf : Memory.wf State.reset.rxBuf := List.Pairwise.nil

/-- What stands in a memory after a run of bytes was written stood there before, or its offset is in the run. -/
theorem Memory.mem_writeBytes {m : Memory} {off : Nat} {bs : Bytes} {c : Host.Cell} (h : c ∈ m.writeBytes off bs) :
    c ∈ m ∨ (off ≤ c.1 ∧ c.1 < off + bs.length) := by
  induction bs generalizing m off with
  | nil => exact .inl h
  | cons b bs ih =>
    rcases ih (m := m.write off b) (off := off + 1) h with h | h
    · rcases Memory.mem_write h with rfl | h
      · exact .inr ⟨le_refl _, by simp⟩
      · exact .inl h
    · exact .inr ⟨by omega, by simp only [List.length_cons]; omega⟩

/-- Reading an offset after a run of bytes was written. -/
theorem Memory.read_writeBytes (m : Memory) (off a : Nat) (bs : Bytes) :
    (m.writeBytes off bs).read a = if off ≤ a ∧ a < off + bs.length then bs[a - off]? else m.read a := by
  induction bs generalizing m off with
  | nil => simp [Memory.writeBytes]
  | cons b bs ih =>
    simp only [Memory.writeBytes, ih, Memory.read_write, List.length_cons]
    by_cases h : off = a
    · subst h; simp
    · by_cases h2 : off + 1 ≤ a ∧ a < off + 1 + bs.length
      · have h3 : off ≤ a ∧ a < off + (bs.length + 1) := by omega
        have h4 : a - off = (a - (off + 1)) + 1 := by omega
        simp [h2, h3, h4]
      · have h3 : ¬(off ≤ a ∧ a < off + (bs.length + 1)) := by omega
        rw [if_neg h2, if_neg h3, if_neg h]

/-- `readBytes` answers exactly when every offset of the run holds a byte, and then gives those bytes. -/
theorem Memory.readBytes_eq_some {m : Memory} {off n : Nat} {bs : Bytes} :
    m.readBytes off n = some bs ↔ bs.length = n ∧ ∀ k, k < n → m.read (off + k) = bs[k]? := by
  induction n generalizing off bs with
  | zero =>
    constructor
    · intro h; simp [Memory.readBytes] at h; simp [← h]
    · intro h; simp [Memory.readBytes, List.length_eq_zero_iff.1 h.1]
  | succ n ih =>
    unfold Memory.readBytes
    constructor
    · intro h
      split at h
      · rename_i b bs' hb hbs
        cases h
        have ⟨hl, hr⟩ := ih.1 hbs
        refine ⟨by simp [hl], fun k hk => ?_⟩
        cases k with
        | zero => simpa using hb
        | succ k =>
          have := hr k (by omega)
          simpa [Nat.add_comm, Nat.add_left_comm] using this
      · cases h
    · rintro ⟨hl, hr⟩
      cases bs with
      | nil => simp at hl
      | cons b bs =>
        have h0 : m.read off = some b := by simpa using hr 0 (by omega)
        have h1 : m.readBytes (off + 1) n = some bs := by
          refine ih.2 ⟨by simpa using hl, fun k hk => ?_⟩
          have := hr (k + 1) (by omega)
          simpa [Nat.add_comm, Nat.add_left_comm] using this
        simp [h0, h1]

/-- The message so far followed by a new payload is what is read back after the payload is written behind it. -/
theorem Memory.readBytes_append {m : Memory} {n : Nat} {bs data : Bytes} (h : m.readBytes 0 n = some bs) :
    (m.writeBytes n data).readBytes 0 (n + data.length) = some (bs ++ data) := by
  have ⟨hl, hr⟩ := Memory.readBytes_eq_some.1 h
  refine Memory.readBytes_eq_some.2 ⟨by simp [hl], fun k hk => ?_⟩
  simp only [Nat.zero_add, Memory.read_writeBytes]
  by_cases hkn : k < n
  · have : ¬(n ≤ k ∧ k < n + data.length) := by omega
    rw [if_neg this, List.getElem?_append_left (by omega)]
    simpa using hr k hkn
  · rw [if_pos (by omega), List.getElem?_append_right (by omega), hl]

/-- A run that is held can be read. -/
theorem Memory.readBytes_isSome {m : Memory} {off n : Nat} (h : ∀ k, k < n → (m.read (off + k)).isSome) :
    (m.readBytes off n).isSome := by
  induction n generalizing off with
  | zero => rfl
  | succ n ih =>
    have h0 := h 0 (by omega)
    have h1 := ih (off := off + 1) (fun k hk => by
      have := h (k + 1) (by omega); rwa [Nat.add_comm k 1, ← Nat.add_assoc] at this)
    obtain ⟨b, hb⟩ := Option.isSome_iff_exists.1 h0
    obtain ⟨bs, hbs⟩ := Option.isSome_iff_exists.1 h1
    rw [Nat.add_zero] at hb
    simp [Memory.readBytes, hb, hbs]

end Sys2Proof.Machine
end

