-- ==== Sys2Proof/Laws/State.lean ====
section
/-! SUPPORT. One lemma per field per update of the state, so that no later proof unfolds a record update. -/

namespace Sys2Proof.Machine

section
variable (s : State)

section
variable (v : U16)
@[simp] theorem State.setCrcAcc_crcAcc : (s.setCrcAcc v).crcAcc = v := rfl
@[simp] theorem State.setCrcAcc_txSeq : (s.setCrcAcc v).txSeq = s.txSeq := rfl
@[simp] theorem State.setCrcAcc_rxActive : (s.setCrcAcc v).rxActive = s.rxActive := rfl
@[simp] theorem State.setCrcAcc_rxExpect : (s.setCrcAcc v).rxExpect = s.rxExpect := rfl
@[simp] theorem State.setCrcAcc_rxLen : (s.setCrcAcc v).rxLen = s.rxLen := rfl
@[simp] theorem State.setCrcAcc_rxBuf : (s.setCrcAcc v).rxBuf = s.rxBuf := rfl
@[simp] theorem State.setCrcAcc_stale : (s.setCrcAcc v).stale = s.stale := rfl
@[simp] theorem State.setCrcAcc_status : (s.setCrcAcc v).status = s.status := rfl
@[simp] theorem State.setCrcAcc_errOffset : (s.setCrcAcc v).errOffset = s.errOffset := rfl
@[simp] theorem State.setCrcAcc_errExpected : (s.setCrcAcc v).errExpected = s.errExpected := rfl
@[simp] theorem State.setCrcAcc_errActual : (s.setCrcAcc v).errActual = s.errActual := rfl
@[simp] theorem State.setCrcAcc_inBuf : (s.setCrcAcc v).inBuf = s.inBuf := rfl
@[simp] theorem State.setCrcAcc_outBuf : (s.setCrcAcc v).outBuf = s.outBuf := rfl
@[simp] theorem State.setCrcAcc_pts : (s.setCrcAcc v).pts = s.pts := rfl
@[simp] theorem State.setCrcAcc_results : (s.setCrcAcc v).results = s.results := rfl
@[simp] theorem State.setCrcAcc_port : (s.setCrcAcc v).port = s.port := rfl
end

section
variable (v : BitVec 6)
@[simp] theorem State.setTxSeq_crcAcc : (s.setTxSeq v).crcAcc = s.crcAcc := rfl
@[simp] theorem State.setTxSeq_txSeq : (s.setTxSeq v).txSeq = v := rfl
@[simp] theorem State.setTxSeq_rxActive : (s.setTxSeq v).rxActive = s.rxActive := rfl
@[simp] theorem State.setTxSeq_rxExpect : (s.setTxSeq v).rxExpect = s.rxExpect := rfl
@[simp] theorem State.setTxSeq_rxLen : (s.setTxSeq v).rxLen = s.rxLen := rfl
@[simp] theorem State.setTxSeq_rxBuf : (s.setTxSeq v).rxBuf = s.rxBuf := rfl
@[simp] theorem State.setTxSeq_stale : (s.setTxSeq v).stale = s.stale := rfl
@[simp] theorem State.setTxSeq_status : (s.setTxSeq v).status = s.status := rfl
@[simp] theorem State.setTxSeq_errOffset : (s.setTxSeq v).errOffset = s.errOffset := rfl
@[simp] theorem State.setTxSeq_errExpected : (s.setTxSeq v).errExpected = s.errExpected := rfl
@[simp] theorem State.setTxSeq_errActual : (s.setTxSeq v).errActual = s.errActual := rfl
@[simp] theorem State.setTxSeq_inBuf : (s.setTxSeq v).inBuf = s.inBuf := rfl
@[simp] theorem State.setTxSeq_outBuf : (s.setTxSeq v).outBuf = s.outBuf := rfl
@[simp] theorem State.setTxSeq_pts : (s.setTxSeq v).pts = s.pts := rfl
@[simp] theorem State.setTxSeq_results : (s.setTxSeq v).results = s.results := rfl
@[simp] theorem State.setTxSeq_port : (s.setTxSeq v).port = s.port := rfl
end

section
variable (b : Bool) (v : BitVec 13)
@[simp] theorem State.setRx_crcAcc : (s.setRx b v).crcAcc = s.crcAcc := rfl
@[simp] theorem State.setRx_txSeq : (s.setRx b v).txSeq = s.txSeq := rfl
@[simp] theorem State.setRx_rxActive : (s.setRx b v).rxActive = b := rfl
@[simp] theorem State.setRx_rxExpect : (s.setRx b v).rxExpect = s.rxExpect := rfl
@[simp] theorem State.setRx_rxLen : (s.setRx b v).rxLen = v := rfl
@[simp] theorem State.setRx_rxBuf : (s.setRx b v).rxBuf = s.rxBuf := rfl
@[simp] theorem State.setRx_stale : (s.setRx b v).stale = s.stale := rfl
@[simp] theorem State.setRx_status : (s.setRx b v).status = s.status := rfl
@[simp] theorem State.setRx_errOffset : (s.setRx b v).errOffset = s.errOffset := rfl
@[simp] theorem State.setRx_errExpected : (s.setRx b v).errExpected = s.errExpected := rfl
@[simp] theorem State.setRx_errActual : (s.setRx b v).errActual = s.errActual := rfl
@[simp] theorem State.setRx_inBuf : (s.setRx b v).inBuf = s.inBuf := rfl
@[simp] theorem State.setRx_outBuf : (s.setRx b v).outBuf = s.outBuf := rfl
@[simp] theorem State.setRx_pts : (s.setRx b v).pts = s.pts := rfl
@[simp] theorem State.setRx_results : (s.setRx b v).results = s.results := rfl
@[simp] theorem State.setRx_port : (s.setRx b v).port = s.port := rfl
end

section
variable (v : BitVec 6)
@[simp] theorem State.setRxExpect_crcAcc : (s.setRxExpect v).crcAcc = s.crcAcc := rfl
@[simp] theorem State.setRxExpect_txSeq : (s.setRxExpect v).txSeq = s.txSeq := rfl
@[simp] theorem State.setRxExpect_rxActive : (s.setRxExpect v).rxActive = s.rxActive := rfl
@[simp] theorem State.setRxExpect_rxExpect : (s.setRxExpect v).rxExpect = v := rfl
@[simp] theorem State.setRxExpect_rxLen : (s.setRxExpect v).rxLen = s.rxLen := rfl
@[simp] theorem State.setRxExpect_rxBuf : (s.setRxExpect v).rxBuf = s.rxBuf := rfl
@[simp] theorem State.setRxExpect_stale : (s.setRxExpect v).stale = s.stale := rfl
@[simp] theorem State.setRxExpect_status : (s.setRxExpect v).status = s.status := rfl
@[simp] theorem State.setRxExpect_errOffset : (s.setRxExpect v).errOffset = s.errOffset := rfl
@[simp] theorem State.setRxExpect_errExpected : (s.setRxExpect v).errExpected = s.errExpected := rfl
@[simp] theorem State.setRxExpect_errActual : (s.setRxExpect v).errActual = s.errActual := rfl
@[simp] theorem State.setRxExpect_inBuf : (s.setRxExpect v).inBuf = s.inBuf := rfl
@[simp] theorem State.setRxExpect_outBuf : (s.setRxExpect v).outBuf = s.outBuf := rfl
@[simp] theorem State.setRxExpect_pts : (s.setRxExpect v).pts = s.pts := rfl
@[simp] theorem State.setRxExpect_results : (s.setRxExpect v).results = s.results := rfl
@[simp] theorem State.setRxExpect_port : (s.setRxExpect v).port = s.port := rfl
end

section
variable (v : Memory)
@[simp] theorem State.setRxBuf_crcAcc : (s.setRxBuf v).crcAcc = s.crcAcc := rfl
@[simp] theorem State.setRxBuf_txSeq : (s.setRxBuf v).txSeq = s.txSeq := rfl
@[simp] theorem State.setRxBuf_rxActive : (s.setRxBuf v).rxActive = s.rxActive := rfl
@[simp] theorem State.setRxBuf_rxExpect : (s.setRxBuf v).rxExpect = s.rxExpect := rfl
@[simp] theorem State.setRxBuf_rxLen : (s.setRxBuf v).rxLen = s.rxLen := rfl
@[simp] theorem State.setRxBuf_rxBuf : (s.setRxBuf v).rxBuf = v := rfl
@[simp] theorem State.setRxBuf_stale : (s.setRxBuf v).stale = s.stale := rfl
@[simp] theorem State.setRxBuf_status : (s.setRxBuf v).status = s.status := rfl
@[simp] theorem State.setRxBuf_errOffset : (s.setRxBuf v).errOffset = s.errOffset := rfl
@[simp] theorem State.setRxBuf_errExpected : (s.setRxBuf v).errExpected = s.errExpected := rfl
@[simp] theorem State.setRxBuf_errActual : (s.setRxBuf v).errActual = s.errActual := rfl
@[simp] theorem State.setRxBuf_inBuf : (s.setRxBuf v).inBuf = s.inBuf := rfl
@[simp] theorem State.setRxBuf_outBuf : (s.setRxBuf v).outBuf = s.outBuf := rfl
@[simp] theorem State.setRxBuf_pts : (s.setRxBuf v).pts = s.pts := rfl
@[simp] theorem State.setRxBuf_results : (s.setRxBuf v).results = s.results := rfl
@[simp] theorem State.setRxBuf_port : (s.setRxBuf v).port = s.port := rfl
end

section
variable (v : Bool)
@[simp] theorem State.setStale_crcAcc : (s.setStale v).crcAcc = s.crcAcc := rfl
@[simp] theorem State.setStale_txSeq : (s.setStale v).txSeq = s.txSeq := rfl
@[simp] theorem State.setStale_rxActive : (s.setStale v).rxActive = s.rxActive := rfl
@[simp] theorem State.setStale_rxExpect : (s.setStale v).rxExpect = s.rxExpect := rfl
@[simp] theorem State.setStale_rxLen : (s.setStale v).rxLen = s.rxLen := rfl
@[simp] theorem State.setStale_rxBuf : (s.setStale v).rxBuf = s.rxBuf := rfl
@[simp] theorem State.setStale_stale : (s.setStale v).stale = v := rfl
@[simp] theorem State.setStale_status : (s.setStale v).status = s.status := rfl
@[simp] theorem State.setStale_errOffset : (s.setStale v).errOffset = s.errOffset := rfl
@[simp] theorem State.setStale_errExpected : (s.setStale v).errExpected = s.errExpected := rfl
@[simp] theorem State.setStale_errActual : (s.setStale v).errActual = s.errActual := rfl
@[simp] theorem State.setStale_inBuf : (s.setStale v).inBuf = s.inBuf := rfl
@[simp] theorem State.setStale_outBuf : (s.setStale v).outBuf = s.outBuf := rfl
@[simp] theorem State.setStale_pts : (s.setStale v).pts = s.pts := rfl
@[simp] theorem State.setStale_results : (s.setStale v).results = s.results := rfl
@[simp] theorem State.setStale_port : (s.setStale v).port = s.port := rfl
end

section
variable (v : Bytes)
@[simp] theorem State.setIn_crcAcc : (s.setIn v).crcAcc = s.crcAcc := rfl
@[simp] theorem State.setIn_txSeq : (s.setIn v).txSeq = s.txSeq := rfl
@[simp] theorem State.setIn_rxActive : (s.setIn v).rxActive = s.rxActive := rfl
@[simp] theorem State.setIn_rxExpect : (s.setIn v).rxExpect = s.rxExpect := rfl
@[simp] theorem State.setIn_rxLen : (s.setIn v).rxLen = s.rxLen := rfl
@[simp] theorem State.setIn_rxBuf : (s.setIn v).rxBuf = s.rxBuf := rfl
@[simp] theorem State.setIn_stale : (s.setIn v).stale = s.stale := rfl
@[simp] theorem State.setIn_status : (s.setIn v).status = s.status := rfl
@[simp] theorem State.setIn_errOffset : (s.setIn v).errOffset = s.errOffset := rfl
@[simp] theorem State.setIn_errExpected : (s.setIn v).errExpected = s.errExpected := rfl
@[simp] theorem State.setIn_errActual : (s.setIn v).errActual = s.errActual := rfl
@[simp] theorem State.setIn_inBuf : (s.setIn v).inBuf = v := rfl
@[simp] theorem State.setIn_outBuf : (s.setIn v).outBuf = s.outBuf := rfl
@[simp] theorem State.setIn_pts : (s.setIn v).pts = s.pts := rfl
@[simp] theorem State.setIn_results : (s.setIn v).results = s.results := rfl
@[simp] theorem State.setIn_port : (s.setIn v).port = s.port := rfl
end

section
variable (v : Bytes)
@[simp] theorem State.setOut_crcAcc : (s.setOut v).crcAcc = s.crcAcc := rfl
@[simp] theorem State.setOut_txSeq : (s.setOut v).txSeq = s.txSeq := rfl
@[simp] theorem State.setOut_rxActive : (s.setOut v).rxActive = s.rxActive := rfl
@[simp] theorem State.setOut_rxExpect : (s.setOut v).rxExpect = s.rxExpect := rfl
@[simp] theorem State.setOut_rxLen : (s.setOut v).rxLen = s.rxLen := rfl
@[simp] theorem State.setOut_rxBuf : (s.setOut v).rxBuf = s.rxBuf := rfl
@[simp] theorem State.setOut_stale : (s.setOut v).stale = s.stale := rfl
@[simp] theorem State.setOut_status : (s.setOut v).status = s.status := rfl
@[simp] theorem State.setOut_errOffset : (s.setOut v).errOffset = s.errOffset := rfl
@[simp] theorem State.setOut_errExpected : (s.setOut v).errExpected = s.errExpected := rfl
@[simp] theorem State.setOut_errActual : (s.setOut v).errActual = s.errActual := rfl
@[simp] theorem State.setOut_inBuf : (s.setOut v).inBuf = s.inBuf := rfl
@[simp] theorem State.setOut_outBuf : (s.setOut v).outBuf = v := rfl
@[simp] theorem State.setOut_pts : (s.setOut v).pts = s.pts := rfl
@[simp] theorem State.setOut_results : (s.setOut v).results = s.results := rfl
@[simp] theorem State.setOut_port : (s.setOut v).port = s.port := rfl
end

section
variable (v : List PointRec)
@[simp] theorem State.setPts_crcAcc : (s.setPts v).crcAcc = s.crcAcc := rfl
@[simp] theorem State.setPts_txSeq : (s.setPts v).txSeq = s.txSeq := rfl
@[simp] theorem State.setPts_rxActive : (s.setPts v).rxActive = s.rxActive := rfl
@[simp] theorem State.setPts_rxExpect : (s.setPts v).rxExpect = s.rxExpect := rfl
@[simp] theorem State.setPts_rxLen : (s.setPts v).rxLen = s.rxLen := rfl
@[simp] theorem State.setPts_rxBuf : (s.setPts v).rxBuf = s.rxBuf := rfl
@[simp] theorem State.setPts_stale : (s.setPts v).stale = s.stale := rfl
@[simp] theorem State.setPts_status : (s.setPts v).status = s.status := rfl
@[simp] theorem State.setPts_errOffset : (s.setPts v).errOffset = s.errOffset := rfl
@[simp] theorem State.setPts_errExpected : (s.setPts v).errExpected = s.errExpected := rfl
@[simp] theorem State.setPts_errActual : (s.setPts v).errActual = s.errActual := rfl
@[simp] theorem State.setPts_inBuf : (s.setPts v).inBuf = s.inBuf := rfl
@[simp] theorem State.setPts_outBuf : (s.setPts v).outBuf = s.outBuf := rfl
@[simp] theorem State.setPts_pts : (s.setPts v).pts = v := rfl
@[simp] theorem State.setPts_results : (s.setPts v).results = s.results := rfl
@[simp] theorem State.setPts_port : (s.setPts v).port = s.port := rfl
end

section
variable (v : List HostAct)
@[simp] theorem State.setPort_crcAcc : (s.setPort v).crcAcc = s.crcAcc := rfl
@[simp] theorem State.setPort_txSeq : (s.setPort v).txSeq = s.txSeq := rfl
@[simp] theorem State.setPort_rxActive : (s.setPort v).rxActive = s.rxActive := rfl
@[simp] theorem State.setPort_rxExpect : (s.setPort v).rxExpect = s.rxExpect := rfl
@[simp] theorem State.setPort_rxLen : (s.setPort v).rxLen = s.rxLen := rfl
@[simp] theorem State.setPort_rxBuf : (s.setPort v).rxBuf = s.rxBuf := rfl
@[simp] theorem State.setPort_stale : (s.setPort v).stale = s.stale := rfl
@[simp] theorem State.setPort_status : (s.setPort v).status = s.status := rfl
@[simp] theorem State.setPort_errOffset : (s.setPort v).errOffset = s.errOffset := rfl
@[simp] theorem State.setPort_errExpected : (s.setPort v).errExpected = s.errExpected := rfl
@[simp] theorem State.setPort_errActual : (s.setPort v).errActual = s.errActual := rfl
@[simp] theorem State.setPort_inBuf : (s.setPort v).inBuf = s.inBuf := rfl
@[simp] theorem State.setPort_outBuf : (s.setPort v).outBuf = s.outBuf := rfl
@[simp] theorem State.setPort_pts : (s.setPort v).pts = s.pts := rfl
@[simp] theorem State.setPort_results : (s.setPort v).results = s.results := rfl
@[simp] theorem State.setPort_port : (s.setPort v).port = v := rfl
end

section
variable (d : Done) (r : Results)
@[simp] theorem State.finish_crcAcc : (s.finish d r).crcAcc = s.crcAcc := rfl
@[simp] theorem State.finish_txSeq : (s.finish d r).txSeq = s.txSeq := rfl
@[simp] theorem State.finish_rxActive : (s.finish d r).rxActive = s.rxActive := rfl
@[simp] theorem State.finish_rxExpect : (s.finish d r).rxExpect = s.rxExpect := rfl
@[simp] theorem State.finish_rxLen : (s.finish d r).rxLen = s.rxLen := rfl
@[simp] theorem State.finish_rxBuf : (s.finish d r).rxBuf = s.rxBuf := rfl
@[simp] theorem State.finish_stale : (s.finish d r).stale = s.stale := rfl
@[simp] theorem State.finish_status : (s.finish d r).status = d.code := rfl
@[simp] theorem State.finish_errOffset : (s.finish d r).errOffset = 0 := rfl
@[simp] theorem State.finish_errExpected : (s.finish d r).errExpected = 0 := rfl
@[simp] theorem State.finish_errActual : (s.finish d r).errActual = 0 := rfl
@[simp] theorem State.finish_inBuf : (s.finish d r).inBuf = s.inBuf := rfl
@[simp] theorem State.finish_outBuf : (s.finish d r).outBuf = s.outBuf := rfl
@[simp] theorem State.finish_pts : (s.finish d r).pts = s.pts := rfl
@[simp] theorem State.finish_results : (s.finish d r).results = r := rfl
@[simp] theorem State.finish_port : (s.finish d r).port = s.port := rfl
end

section
variable (f : Fail) (r : Results)
@[simp] theorem State.failWith_crcAcc : (s.failWith f r).crcAcc = s.crcAcc := rfl
@[simp] theorem State.failWith_txSeq : (s.failWith f r).txSeq = s.txSeq := rfl
@[simp] theorem State.failWith_rxActive : (s.failWith f r).rxActive = s.rxActive := rfl
@[simp] theorem State.failWith_rxExpect : (s.failWith f r).rxExpect = s.rxExpect := rfl
@[simp] theorem State.failWith_rxLen : (s.failWith f r).rxLen = s.rxLen := rfl
@[simp] theorem State.failWith_rxBuf : (s.failWith f r).rxBuf = s.rxBuf := rfl
@[simp] theorem State.failWith_stale : (s.failWith f r).stale = s.stale := rfl
@[simp] theorem State.failWith_status : (s.failWith f r).status = f.err.code := rfl
@[simp] theorem State.failWith_errOffset : (s.failWith f r).errOffset = BitVec.ofNat 16 f.offset := rfl
@[simp] theorem State.failWith_errExpected : (s.failWith f r).errExpected = BitVec.ofNat 16 f.expected := rfl
@[simp] theorem State.failWith_errActual : (s.failWith f r).errActual = BitVec.ofNat 16 f.actual := rfl
@[simp] theorem State.failWith_inBuf : (s.failWith f r).inBuf = s.inBuf := rfl
@[simp] theorem State.failWith_outBuf : (s.failWith f r).outBuf = s.outBuf := rfl
@[simp] theorem State.failWith_pts : (s.failWith f r).pts = s.pts := rfl
@[simp] theorem State.failWith_results : (s.failWith f r).results = r := rfl
@[simp] theorem State.failWith_port : (s.failWith f r).port = s.port := rfl
end

end

end Sys2Proof.Machine
end

