-- ==== Sys2Proof/Laws/Ops.lean ====
section
/-! SUPPORT. What each shared operation can do, said once: if it answers a next state, one of the listed cases holds. A proof
about an instruction cites these and does not unfold the operation. -/

namespace Sys2Proof.Machine

/-- The next states of an outcome, as data. -/
theorem next_inj {s t : State} (h : (Host.Outcome.next s : Result) = .next t) : s = t := by injection h

/-! ### The Link unit -/

/-- LINK.ENC's work always ends: the payload is too long, or OUT is its frame. -/
theorem linkEncode_cases {a : LinkAddr} {s t : State} (h : linkEncode a s = .next t) :
    (cfg.linkPayloadMax < s.inBuf.length ∧
      t = (s.setOut []).failWith ⟨.payloadTooLong, 0, cfg.linkPayloadMax, s.inBuf.length⟩ .none) ∨
    (s.inBuf.length ≤ cfg.linkPayloadMax ∧ t = (s.setOut (frame a s.inBuf)).finish .ok .none) := by
  unfold linkEncode at h
  simp only at h
  split at h
  · exact .inl ⟨by assumption, (next_inj h).symm⟩
  · exact .inr ⟨by omega, (next_inj h).symm⟩

theorem linkEncode_ok {a : LinkAddr} {s : State} (h : s.inBuf.length ≤ cfg.linkPayloadMax) :
    linkEncode a s = .next ((s.setOut (frame a s.inBuf)).finish .ok .none) := by
  unfold linkEncode; simp [not_lt.2 h]

theorem linkEncode_long {a : LinkAddr} {s : State} (h : cfg.linkPayloadMax < s.inBuf.length) :
    linkEncode a s =
      .next ((s.setOut []).failWith ⟨.payloadTooLong, 0, cfg.linkPayloadMax, s.inBuf.length⟩ .none) := by
  unfold linkEncode; simp [h]

/-- LINK.DEC's work: a header error, a block error, or the payload. -/
theorem linkDecode_cases {s t : State} (h : linkDecode s = .next t) :
    (∃ f, checkHeader s.inBuf = .error f ∧
      t = (s.setOut []).failWith f (.dropped (BitVec.ofNat 16 (consumedOn f.err 0)))) ∨
    (∃ n f, checkHeader s.inBuf = .ok n ∧ decBlocks s.inBuf (blockCount n) n cfg.headerLen = .error f ∧
      t = (s.setOut []).failWith f (.dropped (BitVec.ofNat 16 (consumedOn f.err (frameLength n))))) ∨
    (∃ n p, checkHeader s.inBuf = .ok n ∧ decBlocks s.inBuf (blockCount n) n cfg.headerLen = .ok p ∧
      t = (s.setOut p).finish .ok (.link (byteAt s.inBuf 3) (word16At s.inBuf 4) (word16At s.inBuf 6)
        (BitVec.ofNat 16 (frameLength n)))) := by
  unfold linkDecode at h
  simp only at h
  split at h
  · exact .inl ⟨_, by assumption, (next_inj h).symm⟩
  · split at h
    · exact .inr (.inl ⟨_, _, by assumption, by assumption, (next_inj h).symm⟩)
    · exact .inr (.inr ⟨_, _, by assumption, by assumption, (next_inj h).symm⟩)

/-- LINK.DEC's work never stops. -/
theorem linkDecode_next (s : State) : ∃ t, linkDecode s = .next t := by
  unfold linkDecode
  simp only
  split
  · exact ⟨_, rfl⟩
  · split <;> exact ⟨_, rfl⟩

/-! ### The Transport unit -/

/-- TP.SEG's work always ends: a bad segment size, or the segment list. -/
theorem tpSegment_cases {seg : Byte} {s t : State} (h : tpSegment seg s = .next t) :
    ((seg.toNat < 1 ∨ cfg.segMax < seg.toNat) ∧
      t = (s.setOut []).failWith ⟨.badSegSize, 0, cfg.segMax, seg.toNat⟩ .none) ∨
    (1 ≤ seg.toNat ∧ seg.toNat ≤ cfg.segMax ∧
      t = ((((s.setOut (segmentLayout
          (segments seg.toNat (segmentCount s.inBuf.length seg.toNat) true s.txSeq s.inBuf))).setTxSeq
        (s.txSeq + BitVec.ofNat 6 (segmentCount s.inBuf.length seg.toNat)))).finish .ok
          (.segments (BitVec.ofNat 16 (segmentCount s.inBuf.length seg.toNat))))) := by
  unfold tpSegment at h
  simp only at h
  split at h
  · exact .inl ⟨by assumption, (next_inj h).symm⟩
  · exact .inr ⟨by omega, by omega, (next_inj h).symm⟩

theorem tpSegment_next (seg : Byte) (s : State) : ∃ t, tpSegment seg s = .next t := by
  unfold tpSegment
  simp only
  split <;> exact ⟨_, rfl⟩

/-- The end of TP.RX's work: an overflow, a fragment delivered, or a segment kept. -/
theorem tpAccept_cases {h : Byte} {data : Bytes} {s t : State} (e : tpAccept h data s = .next t) :
    (cfg.rxBufMax < s.rxLen.toNat + data.length ∧
      t = (s.setRx false 0).failWith ⟨.overflow, 0, cfg.rxBufMax, s.rxLen.toNat + data.length⟩ .none) ∨
    (∃ u, s.rxLen.toNat + data.length ≤ cfg.rxBufMax ∧
      u = ((s.setRxBuf (s.rxBuf.writeBytes s.rxLen.toNat data)).setRx s.rxActive
        (BitVec.ofNat 13 (s.rxLen.toNat + data.length))).setRxExpect (tphSeq h + 1) ∧
      ((tphFin h = true ∧ ∃ bs, u.rxBuf.readBytes 0 (s.rxLen.toNat + data.length) = some bs ∧
          t = ((u.setOut bs).setRx false 0).finish .ok .none) ∨
        (tphFin h = false ∧ t = u.finish .pending .none))) := by
  unfold tpAccept at e
  simp only at e
  split at e
  · exact .inl ⟨by assumption, (next_inj e).symm⟩
  · refine .inr ⟨_, by omega, rfl, ?_⟩
    split at e
    · split at e
      · cases e
      · exact .inl ⟨by assumption, _, by assumption, (next_inj e).symm⟩
    · exact .inr ⟨by simpa using ‹¬tphFin h = true›, (next_inj e).symm⟩

/-- TP.RX's work: no data; no reassembly to join; a sequence mismatch; or the segment goes to the end of TP.RX. -/
theorem tpReceive_cases {s t : State} (e : tpReceive s = .next t) :
    (s.inBuf = [] ∧ t = ((s.setOut []).setStale false).finish .linkOnly .none) ∨
    (∃ h data, s.inBuf = h :: data ∧
      ((tphFir h = true ∧ tpAccept h data (((s.setOut []).setStale s.rxActive).setRx true 0) = .next t) ∨
       (tphFir h = false ∧ s.rxActive = false ∧
          t = ((s.setOut []).setStale false).failWith ⟨.noFir, 0, 0, h.toNat⟩ .none) ∨
       (tphFir h = false ∧ s.rxActive = true ∧ tphSeq h ≠ s.rxExpect ∧
          t = (((s.setOut []).setStale false).setRx false 0).failWith
            ⟨.sequenceMismatch, 0, s.rxExpect.toNat, (tphSeq h).toNat⟩ .none) ∨
       (tphFir h = false ∧ s.rxActive = true ∧ tphSeq h = s.rxExpect ∧
          tpAccept h data ((s.setOut []).setStale false) = .next t))) := by
  unfold tpReceive at e
  split at e
  · exact .inl ⟨by assumption, (next_inj e).symm⟩
  · rename_i h data hb
    refine .inr ⟨h, data, hb, ?_⟩
    simp only at e
    split at e
    · exact .inl ⟨by assumption, e⟩
    · have hf : tphFir h = false := by simpa using ‹¬tphFir h = true›
      split at e
      · exact .inr (.inl ⟨hf, by assumption, (next_inj e).symm⟩)
      · have ha : s.rxActive = true := by simpa using ‹¬s.rxActive = false›
        split at e
        · exact .inr (.inr (.inl ⟨hf, ha, by assumption, (next_inj e).symm⟩))
        · exact .inr (.inr (.inr ⟨hf, ha, by simpa using ‹¬(tphSeq h ≠ s.rxExpect)›, e⟩))

/-- The end of TP.RX's work stops only when it would deliver a byte that was never written. -/
theorem tpAccept_next {h : Byte} {data : Bytes} {s : State}
    (held : ∀ k, k < s.rxLen.toNat → (s.rxBuf.read k).isSome) : ∃ t, tpAccept h data s = .next t := by
  unfold tpAccept
  simp only
  split
  · exact ⟨_, rfl⟩
  · split
    · have : ((s.rxBuf.writeBytes s.rxLen.toNat data).readBytes 0 (s.rxLen.toNat + data.length)).isSome := by
        obtain ⟨bs, hbs⟩ := Option.isSome_iff_exists.1
          (Memory.readBytes_isSome (m := s.rxBuf) (off := 0) (n := s.rxLen.toNat) (by simpa using held))
        rw [Memory.readBytes_append hbs]; rfl
      split
      · rename_i hn
        simp only [State.setRxExpect_rxBuf, State.setRx_rxBuf, State.setRxBuf_rxBuf] at hn
        simp [hn] at this
      · exact ⟨_, rfl⟩
    · exact ⟨_, rfl⟩

/-! ### The Application unit -/

/-- The end of every encoder: a refused block, a fragment that is too long, or the fragment in OUT. -/
theorem emitFragment_cases {bad : Option Fail} {fragment : Bytes} {s t : State}
    (h : emitFragment bad fragment s = .next t) :
    (∃ f, bad = some f ∧ t = (s.setOut []).failWith f .none) ∨
    (bad = none ∧ cfg.apduMax < fragment.length ∧
      t = (s.setOut []).failWith ⟨.encTooLong, 0, cfg.apduMax, cut16 fragment.length⟩ .none) ∨
    (bad = none ∧ fragment.length ≤ cfg.apduMax ∧ t = (s.setOut fragment).finish .ok .none) := by
  unfold emitFragment at h
  split at h
  · exact .inl ⟨_, rfl, (next_inj h).symm⟩
  · split at h
    · exact .inr (.inl ⟨rfl, by assumption, (next_inj h).symm⟩)
    · exact .inr (.inr ⟨rfl, by omega, (next_inj h).symm⟩)

theorem emitFragment_next (bad : Option Fail) (fragment : Bytes) (s : State) :
    ∃ t, emitFragment bad fragment s = .next t := by
  unfold emitFragment
  split
  · exact ⟨_, rfl⟩
  · split <;> exact ⟨_, rfl⟩

/-- APP.DEC's work: the first error of the scan and no point, or the whole fragment. -/
theorem appDecode_cases {s t : State} (h : appDecode s = .next t) :
    (∃ f, decFragment s.inBuf = .error f ∧ t = (s.setPts []).failWith f .none) ∨
    (∃ hd ps, decFragment s.inBuf = .ok (hd, ps) ∧ t = (s.setPts ps).finish .ok (.fragment hd)) := by
  unfold appDecode at h
  split at h
  · exact .inl ⟨_, by assumption, (next_inj h).symm⟩
  · exact .inr ⟨_, _, by assumption, (next_inj h).symm⟩

theorem appDecode_next (s : State) : ∃ t, appDecode s = .next t := by
  unfold appDecode
  split <;> exact ⟨_, rfl⟩

/-! ### The port -/

/-- One step: the block is idle, the host writes IN, or one decoded instruction runs. -/
theorem step_cases {s t : State} (h : step s = .next t) :
    (s.port = [] ∧ t = s) ∨
    (∃ bs rest, s.port = .writeIn bs :: rest ∧ bs.length ≤ cfg.apduMax ∧ t = (s.setPort rest).setIn bs) ∨
    (∃ w rest i, s.port = .issue w :: rest ∧ decode w = .ok i ∧ exec i (s.setPort rest) = .next t) := by
  unfold step fetch at h
  split at h
  · rename_i hf
    split at hf
    · exact .inl ⟨by assumption, (next_inj h).symm⟩
    · split at hf <;> cases hf
    · split at hf <;> cases hf
  · rename_i s' hf
    split at hf
    · cases hf
    · split at hf
      · injection hf with hf
        exact .inr (.inl ⟨_, _, by assumption, by assumption, by rw [hf]; exact (next_inj h).symm⟩)
      · cases hf
    · split at hf <;> cases hf
  · rename_i i s' hf
    split at hf
    · cases hf
    · split at hf <;> cases hf
    · split at hf
      · injection hf with h1 h2
        exact .inr (.inr ⟨_, _, i, by assumption, by rw [← h1]; assumption, by rw [h2]; exact h⟩)
      · cases hf
  · cases h

/-- The decoder answers well-formed instructions only. -/
theorem decode_wellFormed {w : Issue} {i : Instr} (h : decode w = .ok i) : i.WellFormed := by
  unfold decode at h
  split at h
  · cases h
  · split at h
    · injection h with h; rw [← h]; assumption
    · cases h

end Sys2Proof.Machine
end

