-- ==== Sys2Proof/Laws/PerInstr.lean ====
section
/-! SUPPORT. The family EncodeFormat, one lemma per constructor: the word of an instruction is laid out in the format the opcode
table gives the instruction's row, with as many code bytes as that format has (spec/30_encoding.md R45). -/

namespace Sys2Proof.Laws

/-- The column "format" of spec/opcode_table.json. -/
def tableFormat : Instr → Format
  | .lnk _ => .lnk
  | .blk _ => .blk
  | .tph _ => .tph
  | .apc _ => .apc
  | .iin _ => .iin
  | .fcConfirm _ | .fcRead _ | .fcWrite _ | .fcSelect _ | .fcOperate _ | .fcDirectOperate _ => .fc
  | .fcResponse _ | .fcOther _ _ => .fc
  | .qualRange8 _ | .qualRange16 _ | .qualAll _ | .qualCountIndex16 _ | .qualOther _ _ => .qual
  | .objG1v1 _ | .objG1v2 _ | .objG10v1 _ | .objG10v2 _ | .objG20v1 _ | .objG20v2 _ | .objG20v5 _ | .objG20v6 _ => .obj
  | .objG30v1 _ | .objG30v2 _ | .objG30v3 _ | .objG30v4 _ | .objG30v5 _ | .objG30v6 _ => .obj
  | .objG40v1 _ | .objG40v2 _ | .objG40v3 _ | .objG40v4 _ => .obj
  | .objG41v1 _ | .objG41v2 _ | .objG41v3 _ | .objG41v4 _ | .objOther _ _ _ => .obj
  | .crcClr | .crcUpd _ | .crcRd | .crcCalc | .crcChk | .linkEnc _ | .linkDec => .op
  | .tpSeg _ | .tpRx | .tpRst | .appEncRead _ | .appEncWrite _ _ | .appEncConfirm _ | .appEncResp _ => .op
  | .appDec | .illegal _ => .op

/-- The code bytes of a word are as many as its format has; a data block is as long as its payload. -/
def sizeFits (w : Issue) : Prop :=
  match w.format with
  | .lnk => w.code.length = 10
  | .blk => 2 ≤ w.code.length
  | .iin => w.code.length = 2
  | .obj => w.code.length = 3
  | .op | .tph | .apc | .fc | .qual => w.code.length = 1

/-- The family's statement. -/
def EncodeFormat.Statement (i : Instr) : Prop := (encode i).format = tableFormat i ∧ sizeFits (encode i)

theorem EncodeFormat.crcClr : EncodeFormat.Statement (.crcClr) := ⟨rfl, rfl⟩

theorem EncodeFormat.crcUpd (b : Byte) : EncodeFormat.Statement (.crcUpd b) := ⟨rfl, rfl⟩

theorem EncodeFormat.crcRd : EncodeFormat.Statement (.crcRd) := ⟨rfl, rfl⟩

theorem EncodeFormat.crcCalc : EncodeFormat.Statement (.crcCalc) := ⟨rfl, rfl⟩

theorem EncodeFormat.crcChk : EncodeFormat.Statement (.crcChk) := ⟨rfl, rfl⟩

theorem EncodeFormat.linkEnc (a : LinkAddr) : EncodeFormat.Statement (.linkEnc a) := ⟨rfl, rfl⟩

theorem EncodeFormat.linkDec : EncodeFormat.Statement (.linkDec) := ⟨rfl, rfl⟩

theorem EncodeFormat.tpSeg (seg : Byte) : EncodeFormat.Statement (.tpSeg seg) := ⟨rfl, rfl⟩

theorem EncodeFormat.tpRx : EncodeFormat.Statement (.tpRx) := ⟨rfl, rfl⟩

theorem EncodeFormat.tpRst : EncodeFormat.Statement (.tpRst) := ⟨rfl, rfl⟩

theorem EncodeFormat.appEncRead (a : ReadArgs) : EncodeFormat.Statement (.appEncRead a) := ⟨rfl, rfl⟩

theorem EncodeFormat.appEncWrite (func : Byte) (a : WriteArgs) : EncodeFormat.Statement (.appEncWrite func a) := ⟨rfl, rfl⟩

theorem EncodeFormat.appEncConfirm (a : ConfirmArgs) : EncodeFormat.Statement (.appEncConfirm a) := ⟨rfl, rfl⟩

theorem EncodeFormat.appEncResp (a : RespArgs) : EncodeFormat.Statement (.appEncResp a) := ⟨rfl, rfl⟩

theorem EncodeFormat.appDec : EncodeFormat.Statement (.appDec) := ⟨rfl, rfl⟩

theorem EncodeFormat.illegal (op : Byte) : EncodeFormat.Statement (.illegal op) := ⟨rfl, rfl⟩

theorem EncodeFormat.lnk (u : Use LinkAddr LnkParse) : EncodeFormat.Statement (.lnk u) := by
  cases u <;> exact ⟨rfl, rfl⟩

/-- A payload and a CRC are at least two bytes. -/
theorem two_le_payload_crc (p : Bytes) (c : U16) : 2 ≤ (p ++ Machine.le16 c).length := by simp [Machine.le16]

theorem EncodeFormat.blk (u : Use BlkBuild BlkParse) : EncodeFormat.Statement (.blk u) := by
  cases u <;> exact ⟨rfl, two_le_payload_crc _ _⟩

theorem EncodeFormat.tph (u : Use Byte TphParse) : EncodeFormat.Statement (.tph u) := by
  cases u <;> exact ⟨rfl, rfl⟩

theorem EncodeFormat.apc (u : Use RespArgs ApcParse) : EncodeFormat.Statement (.apc u) := by
  cases u <;> exact ⟨rfl, rfl⟩

theorem EncodeFormat.iin (u : Use RespArgs IinParse) : EncodeFormat.Statement (.iin u) := by
  cases u <;> exact ⟨rfl, rfl⟩

theorem EncodeFormat.fcConfirm (u : Use ConfirmArgs FcParse) : EncodeFormat.Statement (.fcConfirm u) := by
  cases u <;> exact ⟨rfl, rfl⟩

theorem EncodeFormat.fcRead (u : Use ReadArgs FcParse) : EncodeFormat.Statement (.fcRead u) := by
  cases u <;> exact ⟨rfl, rfl⟩

theorem EncodeFormat.fcWrite (u : Use WriteArgs FcParse) : EncodeFormat.Statement (.fcWrite u) := by
  cases u <;> exact ⟨rfl, rfl⟩

theorem EncodeFormat.fcSelect (u : Use WriteArgs FcParse) : EncodeFormat.Statement (.fcSelect u) := by
  cases u <;> exact ⟨rfl, rfl⟩

theorem EncodeFormat.fcOperate (u : Use WriteArgs FcParse) : EncodeFormat.Statement (.fcOperate u) := by
  cases u <;> exact ⟨rfl, rfl⟩

theorem EncodeFormat.fcDirectOperate (u : Use WriteArgs FcParse) : EncodeFormat.Statement (.fcDirectOperate u) := by
  cases u <;> exact ⟨rfl, rfl⟩

theorem EncodeFormat.fcResponse (u : Use RespArgs FcParse) : EncodeFormat.Statement (.fcResponse u) := by
  cases u <;> exact ⟨rfl, rfl⟩

theorem EncodeFormat.fcOther (code : Byte) (u : Use WriteArgs FcParse) : EncodeFormat.Statement (.fcOther code u) := by
  cases u <;> exact ⟨rfl, rfl⟩

theorem EncodeFormat.qualRange8 (u : Use Range8Build QualParse) : EncodeFormat.Statement (.qualRange8 u) := by
  cases u <;> exact ⟨rfl, rfl⟩

theorem EncodeFormat.qualRange16 (u : Use Range16Build QualParse) : EncodeFormat.Statement (.qualRange16 u) := by
  cases u <;> exact ⟨rfl, rfl⟩

theorem EncodeFormat.qualAll (u : Use QualBuild QualParse) : EncodeFormat.Statement (.qualAll u) := by
  cases u <;> exact ⟨rfl, rfl⟩

theorem EncodeFormat.qualCountIndex16 (u : Use CountIndexBuild QualParse) : EncodeFormat.Statement (.qualCountIndex16 u) := by
  cases u <;> exact ⟨rfl, rfl⟩

theorem EncodeFormat.qualOther (q : Byte) (p : QualParse) : EncodeFormat.Statement (.qualOther q p) := ⟨rfl, rfl⟩

theorem EncodeFormat.objG1v1 (u : ObjUse) : EncodeFormat.Statement (.objG1v1 u) := by
  cases u <;> exact ⟨rfl, rfl⟩

theorem EncodeFormat.objG1v2 (u : ObjUse) : EncodeFormat.Statement (.objG1v2 u) := by
  cases u <;> exact ⟨rfl, rfl⟩

theorem EncodeFormat.objG10v1 (u : ObjUse) : EncodeFormat.Statement (.objG10v1 u) := by
  cases u <;> exact ⟨rfl, rfl⟩

theorem EncodeFormat.objG10v2 (u : ObjUse) : EncodeFormat.Statement (.objG10v2 u) := by
  cases u <;> exact ⟨rfl, rfl⟩

theorem EncodeFormat.objG20v1 (u : ObjUse) : EncodeFormat.Statement (.objG20v1 u) := by
  cases u <;> exact ⟨rfl, rfl⟩

theorem EncodeFormat.objG20v2 (u : ObjUse) : EncodeFormat.Statement (.objG20v2 u) := by
  cases u <;> exact ⟨rfl, rfl⟩

theorem EncodeFormat.objG20v5 (u : ObjUse) : EncodeFormat.Statement (.objG20v5 u) := by
  cases u <;> exact ⟨rfl, rfl⟩

theorem EncodeFormat.objG20v6 (u : ObjUse) : EncodeFormat.Statement (.objG20v6 u) := by
  cases u <;> exact ⟨rfl, rfl⟩

theorem EncodeFormat.objG30v1 (u : ObjUse) : EncodeFormat.Statement (.objG30v1 u) := by
  cases u <;> exact ⟨rfl, rfl⟩

theorem EncodeFormat.objG30v2 (u : ObjUse) : EncodeFormat.Statement (.objG30v2 u) := by
  cases u <;> exact ⟨rfl, rfl⟩

theorem EncodeFormat.objG30v3 (u : ObjUse) : EncodeFormat.Statement (.objG30v3 u) := by
  cases u <;> exact ⟨rfl, rfl⟩

theorem EncodeFormat.objG30v4 (u : ObjUse) : EncodeFormat.Statement (.objG30v4 u) := by
  cases u <;> exact ⟨rfl, rfl⟩

theorem EncodeFormat.objG30v5 (u : ObjUse) : EncodeFormat.Statement (.objG30v5 u) := by
  cases u <;> exact ⟨rfl, rfl⟩

theorem EncodeFormat.objG30v6 (u : ObjUse) : EncodeFormat.Statement (.objG30v6 u) := by
  cases u <;> exact ⟨rfl, rfl⟩

theorem EncodeFormat.objG40v1 (u : ObjUse) : EncodeFormat.Statement (.objG40v1 u) := by
  cases u <;> exact ⟨rfl, rfl⟩

theorem EncodeFormat.objG40v2 (u : ObjUse) : EncodeFormat.Statement (.objG40v2 u) := by
  cases u <;> exact ⟨rfl, rfl⟩

theorem EncodeFormat.objG40v3 (u : ObjUse) : EncodeFormat.Statement (.objG40v3 u) := by
  cases u <;> exact ⟨rfl, rfl⟩

theorem EncodeFormat.objG40v4 (u : ObjUse) : EncodeFormat.Statement (.objG40v4 u) := by
  cases u <;> exact ⟨rfl, rfl⟩

theorem EncodeFormat.objG41v1 (u : ObjUse) : EncodeFormat.Statement (.objG41v1 u) := by
  cases u <;> exact ⟨rfl, rfl⟩

theorem EncodeFormat.objG41v2 (u : ObjUse) : EncodeFormat.Statement (.objG41v2 u) := by
  cases u <;> exact ⟨rfl, rfl⟩

theorem EncodeFormat.objG41v3 (u : ObjUse) : EncodeFormat.Statement (.objG41v3 u) := by
  cases u <;> exact ⟨rfl, rfl⟩

theorem EncodeFormat.objG41v4 (u : ObjUse) : EncodeFormat.Statement (.objG41v4 u) := by
  cases u <;> exact ⟨rfl, rfl⟩

theorem EncodeFormat.objOther (group : Byte) (variation : Byte) (u : ObjUse) : EncodeFormat.Statement (.objOther group variation u) := by
  cases u <;> exact ⟨rfl, rfl⟩

end Sys2Proof.Laws
end

