-- ==== Sys2Proof/Tests/Slice0.lean ====
section
/-! SUPPORT. The model's own tests. Expected values are the spec's: the vectors of spec/95_test_vectors.md (V, L, T, A) and the
examples of the rules. The last part meets the hypotheses of the statements, one theorem for each statement that has any. -/

namespace Sys2Proof.Tests

open Machine

/-! ### Helpers -/

/-- The machine after reset, with bytes in IN. -/
def fed (bs : Bytes) : State := State.reset.setIn bs

/-- STATUS and the three error registers. -/
structure Ending where
  status   : Byte
  offset   : U16
  expected : U16
  actual   : U16
deriving DecidableEq, Repr

/-- How an operation ended. -/
def ending : Result → Option Ending
  | .next t => some ⟨t.status, t.errOffset, t.errExpected, t.errActual⟩
  | _ => none

/-- STATUS and OUT. -/
structure Output where
  status : Byte
  bytes  : Bytes
deriving DecidableEq, Repr

/-- What an operation put out. -/
def output : Result → Option Output
  | .next t => some ⟨t.status, t.outBuf⟩
  | _ => none

/-- The named results of an outcome. -/
def resultOf : Result → Option Results
  | .next t => some t.results
  | _ => none

/-- The transport registers. -/
structure Transport where
  txSeq    : BitVec 6
  rxActive : Bool
  rxExpect : BitVec 6
  rxLen    : BitVec 13
  stale    : Bool
deriving DecidableEq, Repr

/-- The transport registers after an operation. -/
def transport : Result → Option Transport
  | .next t => some ⟨t.txSeq, t.rxActive, t.rxExpect, t.rxLen, t.stale⟩
  | _ => none

/-- The part of a record a test looks at. -/
structure Point where
  index  : U16
  raw    : U64
  value  : Option Int
  flags  : Byte
  online : Bool
deriving DecidableEq, Repr

/-- The records in PTS after an operation. -/
def points : Result → Option (List Point)
  | .next t => some (t.pts.map (fun p => ⟨p.index, p.raw, p.value, p.flags, p.online⟩))
  | _ => none

/-- A reassembly in progress: one segment of sequence 5 with the bytes 1 and 2 was taken (vector T16, step 1). -/
def mid : State :=
  { State.reset with
    rxActive := true, rxExpect := 6, rxLen := 2, rxBuf := [(0, 1), (1, 2)], status := 0x01, inBuf := [0x45, 1, 2] }

/-! ### WellFormed: an ill-formed term for each check -/

theorem test_wf_index_too_long :
    (Instr.appEncRead ⟨false, 0, [⟨30, 2, .index (List.replicate 65536 0)⟩]⟩).problem = some .indexTooLong := by
  decide +kernel

theorem test_wf_operand_too_long :
    (Instr.tph (.parse ⟨true, true, 0, List.replicate 4096 0⟩)).problem = some .operandTooLong := by
  decide +kernel

theorem test_wf_block_empty : (Instr.blk (.build ⟨⟨0, 0, 0⟩, []⟩)).problem = some .blockSize := by decide

theorem test_wf_block_too_long :
    (Instr.blk (.parse ⟨⟨0, 0, 0⟩, List.replicate 17 0, 0⟩)).problem = some .blockSize := by decide

theorem test_wf_assigned_command : (Instr.illegal 0x34).problem = some .assignedCode := by decide

theorem test_wf_assigned_function : (Instr.fcOther 0x81 (.parse ⟨0, []⟩)).problem = some .assignedCode := by decide

theorem test_wf_assigned_qualifier : (Instr.qualOther 0x28 ⟨⟨0, 0, 0⟩, 0, 0, []⟩).problem = some .assignedCode := by decide

theorem test_wf_assigned_object : (Instr.objOther 30 2 (.parse ⟨⟨0, 0, 0⟩, 0, []⟩)).problem = some .assignedCode := by decide

theorem test_decode_refuses_code_length :
    decode ⟨.op, [0x00, 0x00], {}⟩ = .error .codeLength ∧ decode ⟨.lnk, [0x05, 0x64], {}⟩ = .error .codeLength ∧
      decode ⟨.blk, [0x00], {}⟩ = .error .codeLength := by decide

theorem test_decode_refuses_ill_formed :
    decode ⟨.blk, [0x1D, 0x0A], {}⟩ = .error .blockSize := by decide

/-! ### Decode: a word of every row, written from its table (R47, R48, R49 to R60) -/

theorem test_decode_commands :
    decode ⟨.op, [0b0000_0000], {}⟩ = .ok .crcClr ∧
    decode ⟨.op, [0b0000_0001], { b := 0x31 }⟩ = .ok (.crcUpd 0x31) ∧
    decode ⟨.op, [0b0000_0010], {}⟩ = .ok .crcRd ∧
    decode ⟨.op, [0b0000_0011], {}⟩ = .ok .crcCalc ∧
    decode ⟨.op, [0b0000_0100], {}⟩ = .ok .crcChk ∧
    decode ⟨.op, [0b0001_0000], { control := 0x44, dest := 1, src := 2 }⟩ = .ok (.linkEnc ⟨0x44, 1, 2⟩) ∧
    decode ⟨.op, [0b0001_0001], {}⟩ = .ok .linkDec ∧
    decode ⟨.op, [0b0010_0000], { seg := 249 }⟩ = .ok (.tpSeg 249) ∧
    decode ⟨.op, [0b0010_0001], {}⟩ = .ok .tpRx ∧
    decode ⟨.op, [0b0010_0010], {}⟩ = .ok .tpRst ∧
    decode ⟨.op, [0b0011_0000], { con := true, seq := 15, reqBlocks := [⟨30, 0, .all⟩] }⟩ =
      .ok (.appEncRead ⟨true, 15, [⟨30, 0, .all⟩]⟩) ∧
    decode ⟨.op, [0b0011_0001], { con := true, seq := 3, func := 5 }⟩ = .ok (.appEncWrite 5 ⟨true, 3, []⟩) ∧
    decode ⟨.op, [0b0011_0010], { seq := 5, uns := true }⟩ = .ok (.appEncConfirm ⟨5, true⟩) ∧
    decode ⟨.op, [0b0011_0011], { fir := true, uns := true, seq := 7, iin1 := 0x90, iin2 := 1 }⟩ =
      .ok (.appEncResp ⟨⟨true, false, false, true, 7⟩, 0x90, 1, []⟩) ∧
    decode ⟨.op, [0b0011_0100], {}⟩ = .ok .appDec := by decide

theorem test_decode_illegal_commands :
    [0x05, 0x0F, 0x12, 0x1F, 0x23, 0x2F, 0x35, 0x81, 0xFF].all
      (fun op => decode ⟨.op, [op], {}⟩ == .ok (.illegal op)) = true := by decide

theorem test_decode_link_header :
    decode ⟨.lnk, [0x05, 0x64, 0x06, 0x44, 0x34, 0x12, 0xCD, 0xAB, 0x6C, 0xEA], {}⟩ =
      .ok (.lnk (.parse ⟨0x05, 0x64, 6, 0x44, 0x1234, 0xABCD, 0xEA6C, []⟩)) ∧
    decode ⟨.lnk, [0x05, 0x64, 0, 0x44, 0x34, 0x12, 0xCD, 0xAB, 0, 0], { dir := .build }⟩ =
      .ok (.lnk (.build ⟨0x44, 0x1234, 0xABCD⟩)) := by decide

theorem test_decode_data_block :
    decode ⟨.blk, [0xC0, 0xC1, 0x1D, 0x0A], { control := 1, dest := 2, src := 3 }⟩ =
      .ok (.blk (.parse ⟨⟨1, 2, 3⟩, [0xC0, 0xC1], 0x0A1D⟩)) := by decide

theorem test_decode_transport_header :
    decode ⟨.tph, [0b1000_0101], { tail := [7] }⟩ = .ok (.tph (.parse ⟨true, false, 5, [7]⟩)) ∧
    decode ⟨.tph, [0b0111_1111], {}⟩ = .ok (.tph (.parse ⟨false, true, 63, []⟩)) ∧
    decode ⟨.tph, [0], { dir := .build, seg := 16 }⟩ = .ok (.tph (.build 16)) := by decide

theorem test_decode_control_byte :
    decode ⟨.apc, [0b1000_0011], { tail := [0x00] }⟩ = .ok (.apc (.parse ⟨⟨true, false, false, false, 3⟩, [0x00]⟩)) ∧
    decode ⟨.apc, [0b0101_0100], {}⟩ = .ok (.apc (.parse ⟨⟨false, true, false, true, 4⟩, []⟩)) ∧
    decode ⟨.apc, [0b0010_1111], { dir := .build, iin1 := 1, iin2 := 2 }⟩ =
      .ok (.apc (.build ⟨⟨false, false, true, false, 15⟩, 1, 2, []⟩)) := by decide

theorem test_decode_indications :
    decode ⟨.iin, [0x90, 0x01], { apc := 0xC0 }⟩ = .ok (.iin (.parse ⟨0xC0, 0x90, 0x01, []⟩)) ∧
    decode ⟨.iin, [0x90, 0x01], { dir := .build, apc := 0xC5 }⟩ =
      .ok (.iin (.build ⟨⟨true, true, false, false, 5⟩, 0x90, 0x01, []⟩)) := by decide

theorem test_decode_function_codes :
    decode ⟨.fc, [0x00], { apc := 0xC5 }⟩ = .ok (.fcConfirm (.parse ⟨0xC5, []⟩)) ∧
    decode ⟨.fc, [0x01], { tail := [30] }⟩ = .ok (.fcRead (.parse ⟨0, [30]⟩)) ∧
    decode ⟨.fc, [0x02], { dir := .build, con := true, seq := 1 }⟩ = .ok (.fcWrite (.build ⟨true, 1, []⟩)) ∧
    decode ⟨.fc, [0x03], {}⟩ = .ok (.fcSelect (.parse ⟨0, []⟩)) ∧
    decode ⟨.fc, [0x04], {}⟩ = .ok (.fcOperate (.parse ⟨0, []⟩)) ∧
    decode ⟨.fc, [0x05], {}⟩ = .ok (.fcDirectOperate (.parse ⟨0, []⟩)) ∧
    decode ⟨.fc, [0x81], { tail := [1, 2] }⟩ = .ok (.fcResponse (.parse ⟨0, [1, 2]⟩)) ∧
    decode ⟨.fc, [0x82], {}⟩ = .ok (.fcOther 0x82 (.parse ⟨0, []⟩)) := by decide

theorem test_decode_qualifiers :
    decode ⟨.qual, [0x00], { dir := .build, group := 30, variation := 4, start := 2, stop := 3 }⟩ =
      .ok (.qualRange8 (.build ⟨⟨false, 0, 30, 4⟩, 2, 3⟩)) ∧
    decode ⟨.qual, [0x01], { dir := .build, group := 30, variation := 4, start := 256, stop := 257 }⟩ =
      .ok (.qualRange16 (.build ⟨⟨false, 0, 30, 4⟩, 256, 257⟩)) ∧
    decode ⟨.qual, [0x06], { dir := .build, seq := 2, group := 30 }⟩ = .ok (.qualAll (.build ⟨false, 2, 30, 0⟩)) ∧
    decode ⟨.qual, [0x28], { dir := .build, group := 30, variation := 2, idx := [8] }⟩ =
      .ok (.qualCountIndex16 (.build ⟨⟨false, 0, 30, 2⟩, [8]⟩)) ∧
    decode ⟨.qual, [0x17], { apc := 0xC0, group := 30, variation := 2, tail := [1] }⟩ =
      .ok (.qualOther 0x17 ⟨⟨0xC0, 0, 0⟩, 30, 2, [1]⟩) := by decide

theorem test_decode_objects :
    decode ⟨.obj, [0x01, 0x01, 0x28], { tail := [1] }⟩ = .ok (.objG1v1 (.parse ⟨⟨0, 0, 0⟩, 0x28, [1]⟩)) ∧
    decode ⟨.obj, [0x01, 0x02, 0x28], { tail := [2] }⟩ = .ok (.objG1v2 (.parse ⟨⟨0, 0, 0⟩, 0x28, [2]⟩)) ∧
    decode ⟨.obj, [0x0A, 0x01, 0x28], { tail := [1] }⟩ = .ok (.objG10v1 (.parse ⟨⟨0, 0, 0⟩, 0x28, [1]⟩)) ∧
    decode ⟨.obj, [0x0A, 0x02, 0x28], { tail := [2] }⟩ = .ok (.objG10v2 (.parse ⟨⟨0, 0, 0⟩, 0x28, [2]⟩)) ∧
    decode ⟨.obj, [0x14, 0x01, 0x28], { tail := [1] }⟩ = .ok (.objG20v1 (.parse ⟨⟨0, 0, 0⟩, 0x28, [1]⟩)) ∧
    decode ⟨.obj, [0x14, 0x02, 0x28], { tail := [2] }⟩ = .ok (.objG20v2 (.parse ⟨⟨0, 0, 0⟩, 0x28, [2]⟩)) ∧
    decode ⟨.obj, [0x14, 0x05, 0x28], { tail := [5] }⟩ = .ok (.objG20v5 (.parse ⟨⟨0, 0, 0⟩, 0x28, [5]⟩)) ∧
    decode ⟨.obj, [0x14, 0x06, 0x28], { tail := [6] }⟩ = .ok (.objG20v6 (.parse ⟨⟨0, 0, 0⟩, 0x28, [6]⟩)) ∧
    decode ⟨.obj, [0x1E, 0x01, 0x28], { tail := [1] }⟩ = .ok (.objG30v1 (.parse ⟨⟨0, 0, 0⟩, 0x28, [1]⟩)) ∧
    decode ⟨.obj, [0x1E, 0x02, 0x28], { tail := [2] }⟩ = .ok (.objG30v2 (.parse ⟨⟨0, 0, 0⟩, 0x28, [2]⟩)) ∧
    decode ⟨.obj, [0x1E, 0x03, 0x28], { tail := [3] }⟩ = .ok (.objG30v3 (.parse ⟨⟨0, 0, 0⟩, 0x28, [3]⟩)) ∧
    decode ⟨.obj, [0x1E, 0x04, 0x28], { tail := [4] }⟩ = .ok (.objG30v4 (.parse ⟨⟨0, 0, 0⟩, 0x28, [4]⟩)) ∧
    decode ⟨.obj, [0x1E, 0x05, 0x28], { tail := [5] }⟩ = .ok (.objG30v5 (.parse ⟨⟨0, 0, 0⟩, 0x28, [5]⟩)) ∧
    decode ⟨.obj, [0x1E, 0x06, 0x28], { tail := [6] }⟩ = .ok (.objG30v6 (.parse ⟨⟨0, 0, 0⟩, 0x28, [6]⟩)) ∧
    decode ⟨.obj, [0x28, 0x01, 0x28], { tail := [1] }⟩ = .ok (.objG40v1 (.parse ⟨⟨0, 0, 0⟩, 0x28, [1]⟩)) ∧
    decode ⟨.obj, [0x28, 0x02, 0x28], { tail := [2] }⟩ = .ok (.objG40v2 (.parse ⟨⟨0, 0, 0⟩, 0x28, [2]⟩)) ∧
    decode ⟨.obj, [0x28, 0x03, 0x28], { tail := [3] }⟩ = .ok (.objG40v3 (.parse ⟨⟨0, 0, 0⟩, 0x28, [3]⟩)) ∧
    decode ⟨.obj, [0x28, 0x04, 0x28], { tail := [4] }⟩ = .ok (.objG40v4 (.parse ⟨⟨0, 0, 0⟩, 0x28, [4]⟩)) ∧
    decode ⟨.obj, [0x29, 0x01, 0x28], { tail := [1] }⟩ = .ok (.objG41v1 (.parse ⟨⟨0, 0, 0⟩, 0x28, [1]⟩)) ∧
    decode ⟨.obj, [0x29, 0x02, 0x28], { tail := [2] }⟩ = .ok (.objG41v2 (.parse ⟨⟨0, 0, 0⟩, 0x28, [2]⟩)) ∧
    decode ⟨.obj, [0x29, 0x03, 0x28], { tail := [3] }⟩ = .ok (.objG41v3 (.parse ⟨⟨0, 0, 0⟩, 0x28, [3]⟩)) ∧
    decode ⟨.obj, [0x29, 0x04, 0x28], { tail := [4] }⟩ = .ok (.objG41v4 (.parse ⟨⟨0, 0, 0⟩, 0x28, [4]⟩)) ∧
    decode ⟨.obj, [0x1E, 0x07, 0x28], {}⟩ = .ok (.objOther 0x1E 0x07 (.parse ⟨⟨0, 0, 0⟩, 0x28, []⟩)) := by decide

theorem test_table_words :
    decodeTableWord 8 0x34 = some .appDec ∧ decodeTableWord 8 0x81 = some (.fcResponse (.parse ⟨0, []⟩)) ∧
    decodeTableWord 8 0x28 = some (.qualCountIndex16 (.parse ⟨⟨0, 0, 0⟩, 0, 0, []⟩)) ∧
    decodeTableWord 16 0x1E02 = some (.objG30v2 (.parse ⟨⟨0, 0, 0⟩, 0, []⟩)) ∧
    decodeTableWord 80 0x05640544010000003C79 = some (.lnk (.parse ⟨0x05, 0x64, 5, 0x44, 1, 0, 0x793C, []⟩)) := by decide

/-! ### The CRC unit -/

/-- V20, V21, V23. -/
theorem test_crc_stream :
    exec .crcClr { State.reset with crcAcc := 0x157D } = .next State.reset ∧
    exec (.crcUpd 0x31) State.reset = .next { State.reset with crcAcc := 0xAD9A } ∧
    exec .crcRd { State.reset with crcAcc := 0x157D } =
      .next { State.reset with crcAcc := 0x157D, results := .crc 0xEA82 } := ⟨rfl, rfl, rfl⟩

/-- V25: the nine bytes "123456789"; V26: the empty string. -/
theorem test_crc_calc :
    resultOf (exec .crcCalc (fed [0x31, 0x32, 0x33, 0x34, 0x35, 0x36, 0x37, 0x38, 0x39])) = some (.crc 0xEA82) ∧
    resultOf (exec .crcCalc (fed [])) = some (.crc 0xFFFF) := by decide +kernel

/-- V27, V28. -/
theorem test_crc_chk :
    resultOf (exec .crcChk (fed [0xC0, 0x1D, 0x0A])) = some (.check true 0x0A1D 0x0A1D) ∧
    resultOf (exec .crcChk (fed [0xC0, 0x1D, 0x0B])) = some (.check false 0x0A1D 0x0B1D) := by decide

/-- V30. -/
theorem test_crc_chk_truncated : ending (exec .crcChk (fed [0xFF])) = some ⟨0x10, 1, 2, 1⟩ := by decide

/-! ### The Link unit -/

/-- L2. -/
theorem test_link_enc :
    output (exec (.linkEnc ⟨0x44, 1, 0⟩) (fed [0xC0])) =
      some ⟨0x00, [0x05, 0x64, 0x06, 0x44, 0x01, 0, 0, 0, 0x6C, 0xEA, 0xC0, 0x1D, 0x0A]⟩ := by decide +kernel

/-- L7. -/
theorem test_link_enc_too_long :
    ending (exec (.linkEnc ⟨0x44, 1, 0⟩) (fed (List.replicate 251 0))) = some ⟨0x15, 0, 250, 251⟩ := by decide +kernel

/-- L12: a frame and the start of the next. -/
theorem test_link_dec :
    (output (exec .linkDec (fed [0x05, 0x64, 0x06, 0x44, 0x01, 0, 0, 0, 0x6C, 0xEA, 0xC0, 0x1D, 0x0A, 0x05, 0x64, 0x05])),
      resultOf (exec .linkDec (fed [0x05, 0x64, 0x06, 0x44, 0x01, 0, 0, 0, 0x6C, 0xEA, 0xC0, 0x1D, 0x0A, 0x05, 0x64]))) =
    (some ⟨0x00, [0xC0]⟩, some (.link 0x44 1 0 13)) := by decide +kernel

/-- L21, L24, L28, L34. -/
theorem test_link_dec_errors :
    ending (exec .linkDec (fed [0x05, 0x65])) = some ⟨0x11, 1, 0x64, 0x65⟩ ∧
    ending (exec .linkDec (fed [0x05, 0x64, 0x07, 0x44, 0x01, 0, 0, 0, 0x6C, 0xEA, 0xC0, 0x1D, 0x0A])) =
      some ⟨0x12, 8, 0x5F8B, 0xEA6C⟩ ∧
    ending (exec .linkDec (fed [0x05, 0x64, 0x06, 0x44, 0x01, 0, 0, 0, 0x6C, 0xEA, 0xC0, 0x9D, 0x0A])) =
      some ⟨0x13, 11, 0x0A1D, 0x0A9D⟩ ∧
    ending (exec .linkDec (fed [0x05, 0x64, 0x04, 0x44, 0x01, 0, 0, 0, 0, 0])) = some ⟨0x12, 8, 0xCCDB, 0⟩ := by decide +kernel

/-! ### The Transport unit -/

/-- T5: the sequence wraps in the middle of a message. -/
theorem test_tp_seg :
    output (exec (.tpSeg 2) { fed [0xA1, 0xA2, 0xA3, 0xA4, 0xA5] with txSeq := 62 }) =
      some ⟨0x00, [0x03, 0x7E, 0xA1, 0xA2, 0x03, 0x3F, 0xA3, 0xA4, 0x02, 0x80, 0xA5]⟩ ∧
    transport (exec (.tpSeg 2) { fed [0xA1, 0xA2, 0xA3, 0xA4, 0xA5] with txSeq := 62 }) =
      some ⟨1, false, 0, 0, false⟩ := by decide

/-- T13. -/
theorem test_tp_seg_bad_size : ending (exec (.tpSeg 250) (fed [0x61, 0x62])) = some ⟨0x23, 0, 249, 250⟩ := by decide

/-- T16 step 3: the message is completed. -/
theorem test_tp_rx :
    output (exec .tpRx (mid.setIn [0x86, 3])) = some ⟨0x00, [1, 2, 3]⟩ ∧
    transport (exec .tpRx (mid.setIn [0x86, 3])) = some ⟨0, false, 7, 0, false⟩ := by decide

/-- T18 step 2: a stale reassembly is dropped. -/
theorem test_tp_rx_stale :
    output (exec .tpRx (mid.setIn [0x4A, 7])) = some ⟨0x01, []⟩ ∧
    transport (exec .tpRx (mid.setIn [0x4A, 7])) = some ⟨0, true, 11, 1, true⟩ := by decide

/-- T23. -/
theorem test_tp_rst :
    transport (exec .tpRst { mid with txSeq := 17, stale := true }) = some ⟨0, false, 0, 0, false⟩ := by decide

/-! ### The Application unit -/

/-- A4. -/
theorem test_app_enc_read :
    output (exec (.appEncRead ⟨false, 4, [⟨1, 2, .range 0 7⟩, ⟨30, 1, .range 0 4⟩]⟩) (fed [])) =
      some ⟨0x00, [0xC4, 0x01, 0x01, 0x02, 0, 0, 7, 0x1E, 0x01, 0, 0, 4]⟩ := by decide

/-- A5: the range passes 255. A9: the second block is backwards. -/
theorem test_app_enc_read_forms :
    output (exec (.appEncRead ⟨false, 5, [⟨30, 5, .range 250 256⟩]⟩) (fed [])) =
      some ⟨0x00, [0xC5, 0x01, 0x1E, 0x05, 0x01, 0xFA, 0, 0, 1]⟩ ∧
    ending (exec (.appEncRead ⟨false, 0, [⟨1, 1, .range 0 0⟩, ⟨30, 1, .range 5 4⟩]⟩) (fed [])) =
      some ⟨0x39, 1, 5, 4⟩ := by decide

/-- A12. -/
theorem test_app_enc_write :
    output (exec (.appEncWrite 0x05 ⟨true, 3, [⟨41, 2, .index [4], [⟨0x64, 0⟩]⟩]⟩) (fed [])) =
      some ⟨0x00, [0xE3, 0x05, 0x29, 0x02, 0x28, 1, 0, 4, 0, 0x64, 0, 0]⟩ := by decide

/-- A27, A28, A29. -/
theorem test_app_enc_write_refusals :
    ending (exec (.appEncWrite 2 ⟨false, 0, [⟨10, 1, .index [0], [⟨1, 0⟩]⟩]⟩) (fed [])) = some ⟨0x39, 0, 0, 0x28⟩ ∧
    ending (exec (.appEncWrite 2 ⟨false, 0, [⟨41, 2, .index [1, 2], [⟨1, 0⟩]⟩]⟩) (fed [])) = some ⟨0x39, 0, 2, 1⟩ ∧
    ending (exec (.appEncWrite 2 ⟨false, 0, [⟨41, 2, .index [1], [⟨1, 0⟩]⟩, ⟨60, 1, .all, []⟩]⟩) (fed [])) =
      some ⟨0x38, 1, 0, 0x3C01⟩ := by decide

/-- R143's vectors. -/
theorem test_app_enc_confirm :
    output (exec (.appEncConfirm ⟨5, false⟩) (fed [])) = some ⟨0x00, [0xC5, 0x00]⟩ ∧
    output (exec (.appEncConfirm ⟨15, true⟩) (fed [])) = some ⟨0x00, [0xDF, 0x00]⟩ := by decide

/-- S4. -/
theorem test_app_enc_resp :
    output (exec (.appEncResp ⟨⟨true, true, false, false, 0⟩, 0, 0, [⟨30, 2, .index [8], [⟨0xFF, 1⟩]⟩]⟩) (fed [])) =
      some ⟨0x00, [0xC0, 0x81, 0, 0, 0x1E, 0x02, 0x28, 1, 0, 8, 0, 1, 0xFF, 0]⟩ := by decide

/-- S4. -/
theorem test_app_dec :
    points (exec .appDec (fed [0xC0, 0x81, 0, 0, 0x1E, 0x02, 0x28, 1, 0, 8, 0, 1, 0xFF, 0])) =
      some [⟨8, 0xFF, some 255, 1, true⟩] := by decide

/-- A31: the header results. -/
theorem test_app_dec_header :
    resultOf (exec .appDec (fed [0xE7, 0x81, 0x90, 0x01])) =
      some (.fragment ⟨⟨true, true, true, false, 7⟩, 0x81, .response, true, 0x90, 0x01, 0x0190⟩) := by decide

/-- R48's case. -/
theorem test_illegal : ending (exec (.illegal 0x35) mid) = some ⟨0xFF, 0, 0, 0x35⟩ := by decide

/-! ### The wire items -/

/-- L1 built and parsed. -/
theorem test_lnk :
    output (exec (.lnk (.build ⟨0x44, 1, 0⟩)) (fed [])) = some ⟨0x00, [0x05, 0x64, 5, 0x44, 1, 0, 0, 0, 0x3C, 0x79]⟩ ∧
    resultOf (exec (.lnk (.parse ⟨0x05, 0x64, 5, 0x44, 1, 0, 0x793C, []⟩)) (fed [])) = some (.link 0x44 1 0 10) := by decide +kernel

/-- L2's block built, and L28's parsed. -/
theorem test_blk :
    output (exec (.blk (.build ⟨⟨0x44, 1, 0⟩, [0xC0]⟩)) (fed [])) =
      some ⟨0x00, [0x05, 0x64, 0x06, 0x44, 0x01, 0, 0, 0, 0x6C, 0xEA, 0xC0, 0x1D, 0x0A]⟩ ∧
    ending (exec (.blk (.parse ⟨⟨0x44, 1, 0⟩, [0xC0], 0x0A9D⟩)) (fed [])) = some ⟨0x13, 11, 0x0A1D, 0x0A9D⟩ := by decide +kernel

/-- T4 and T19 step 2. -/
theorem test_tph :
    output (exec (.tph (.build 249)) (fed [0xC0, 0x01])) = some ⟨0x00, [0x03, 0xC0, 0xC0, 0x01]⟩ ∧
    transport (exec (.tph (.parse ⟨true, true, 0, [7]⟩)) mid) = some ⟨0, false, 1, 0, true⟩ := by decide

/-- A31, by its control byte and by its indications; A34. -/
theorem test_apc_iin :
    output (exec (.apc (.build ⟨⟨true, true, true, false, 7⟩, 0x90, 1, []⟩)) (fed [])) = some ⟨0x00, [0xE7, 0x81, 0x90, 1]⟩ ∧
    resultOf (exec (.apc (.parse ⟨⟨true, true, false, false, 5⟩, [0x00]⟩)) (fed [])) =
      some (.fragment ⟨⟨true, true, false, false, 5⟩, 0x00, .confirm, false, 0, 0, 0⟩) ∧
    output (exec (.iin (.build ⟨⟨true, true, true, false, 7⟩, 0x90, 1, []⟩)) (fed [])) = some ⟨0x00, [0xE7, 0x81, 0x90, 1]⟩ ∧
    resultOf (exec (.iin (.parse ⟨0xE7, 0x90, 0x01, []⟩)) (fed [])) =
      some (.fragment ⟨⟨true, true, true, false, 7⟩, 0x81, .response, true, 0x90, 0x01, 0x0190⟩) := by decide

/-- The header bytes of the examples of R190 to R196 and A23. -/
theorem test_fc_build :
    output (exec (.fcConfirm (.build ⟨5, false⟩)) (fed [])) = some ⟨0x00, [0xC5, 0x00]⟩ ∧
    output (exec (.fcRead (.build ⟨false, 0, [⟨30, 2, .index [8]⟩]⟩)) (fed [])) =
      some ⟨0x00, [0xC0, 0x01, 0x1E, 0x02, 0x28, 1, 0, 8, 0]⟩ ∧
    output (exec (.fcWrite (.build ⟨false, 1, [⟨10, 1, .range 0 2, [⟨1, 0⟩, ⟨0, 0⟩, ⟨1, 0⟩]⟩]⟩)) (fed [])) =
      some ⟨0x00, [0xC1, 0x02, 0x0A, 0x01, 0, 0, 2, 5]⟩ ∧
    output (exec (.fcSelect (.build ⟨false, 2, []⟩)) (fed [])) = some ⟨0x00, [0xC2, 0x03]⟩ ∧
    output (exec (.fcOperate (.build ⟨true, 3, []⟩)) (fed [])) = some ⟨0x00, [0xE3, 0x04]⟩ ∧
    output (exec (.fcDirectOperate (.build ⟨true, 3, []⟩)) (fed [])) = some ⟨0x00, [0xE3, 0x05]⟩ ∧
    output (exec (.fcResponse (.build ⟨⟨true, true, false, false, 0⟩, 0, 0, []⟩)) (fed [])) =
      some ⟨0x00, [0xC0, 0x81, 0, 0]⟩ ∧
    output (exec (.fcOther 0x99 (.build ⟨false, 0, []⟩)) (fed [])) = some ⟨0x00, [0xC0, 0x99]⟩ := by decide

/-- A34, A54, A35, A55 and the other request codes. -/
theorem test_fc_parse :
    ending (exec (.fcConfirm (.parse ⟨0xC5, []⟩)) (fed [])) = some ⟨0x00, 0, 0, 0⟩ ∧
    ending (exec (.fcRead (.parse ⟨0xC0, [0x1E, 0x02, 0x28, 1, 0, 8, 0]⟩)) (fed [])) = some ⟨0x33, 1, 0x81, 0x01⟩ ∧
    ending (exec (.fcWrite (.parse ⟨0xC0, []⟩)) (fed [])) = some ⟨0x33, 1, 0x81, 0x02⟩ ∧
    ending (exec (.fcSelect (.parse ⟨0xC0, []⟩)) (fed [])) = some ⟨0x33, 1, 0x81, 0x03⟩ ∧
    ending (exec (.fcOperate (.parse ⟨0xC0, []⟩)) (fed [])) = some ⟨0x33, 1, 0x81, 0x04⟩ ∧
    ending (exec (.fcDirectOperate (.parse ⟨0xC0, []⟩)) (fed [])) = some ⟨0x33, 1, 0x81, 0x05⟩ ∧
    ending (exec (.fcResponse (.parse ⟨0xC0, [0, 0]⟩)) (fed [])) = some ⟨0x00, 0, 0, 0⟩ ∧
    ending (exec (.fcOther 0x82 (.parse ⟨0xC0, [0, 0]⟩)) (fed [])) = some ⟨0x33, 1, 0x81, 0x82⟩ := by decide

/-- The examples of R185 to R188. -/
theorem test_qual_parse :
    points (exec (.qualRange8 (.parse ⟨⟨0xC0, 0, 0⟩, 30, 4, [2, 3, 0x0A, 0, 0x14, 0]⟩)) (fed [])) =
      some [⟨2, 10, some 10, 0, false⟩, ⟨3, 20, some 20, 0, false⟩] ∧
    points (exec (.qualRange16 (.parse ⟨⟨0xC0, 0, 0⟩, 30, 4, [0, 1, 1, 1, 0x0A, 0, 0x14, 0]⟩)) (fed [])) =
      some [⟨256, 10, some 10, 0, false⟩, ⟨257, 20, some 20, 0, false⟩] ∧
    ending (exec (.qualAll (.parse ⟨⟨0xC0, 0, 0⟩, 30, 2, []⟩)) (fed [])) = some ⟨0x32, 6, 0, 0x06⟩ ∧
    points (exec (.qualCountIndex16 (.parse ⟨⟨0xC0, 0, 0⟩, 30, 2, [1, 0, 8, 0, 1, 0xFF, 0]⟩)) (fed [])) =
      some [⟨8, 0xFF, some 255, 1, true⟩] ∧
    ending (exec (.qualOther 0x17 ⟨⟨0xC0, 0, 0⟩, 30, 2, [1]⟩) (fed [])) = some ⟨0x32, 6, 0, 0x17⟩ := by decide

/-- A6, A5, A3, A2. -/
theorem test_qual_build :
    output (exec (.qualRange8 (.build ⟨⟨false, 5, 30, 5⟩, 255, 255⟩)) (fed [])) =
      some ⟨0x00, [0xC5, 0x01, 0x1E, 0x05, 0x00, 0xFF, 0xFF]⟩ ∧
    output (exec (.qualRange16 (.build ⟨⟨false, 5, 30, 5⟩, 250, 256⟩)) (fed [])) =
      some ⟨0x00, [0xC5, 0x01, 0x1E, 0x05, 0x01, 0xFA, 0, 0, 1]⟩ ∧
    output (exec (.qualAll (.build ⟨false, 2, 30, 0⟩)) (fed [])) = some ⟨0x00, [0xC2, 0x01, 0x1E, 0x00, 0x06]⟩ ∧
    output (exec (.qualCountIndex16 (.build ⟨⟨true, 15, 30, 2⟩, [8]⟩)) (fed [])) =
      some ⟨0x00, [0xEF, 0x01, 0x1E, 0x02, 0x28, 1, 0, 8, 0]⟩ := by decide

/-- One point of an object row parsed under qualifier COUNT_INDEX16: index 7 and the given point bytes. -/
def parsed (row : ObjUse → Instr) (bytes : Bytes) : Option (List Point) :=
  points (exec (row (.parse ⟨⟨0xC0, 0, 0⟩, 0x28, [1, 0, 7, 0] ++ bytes⟩)) (fed []))

/-- The examples of R160 and R162: ten states packed. -/
theorem test_obj_packed :
    (points (exec (.objG1v1 (.parse ⟨⟨0xC0, 0, 0⟩, 0x00, [0, 9, 0xA5, 0x02]⟩)) (fed []))).map (·.map (·.raw)) =
      some [1, 0, 1, 0, 0, 1, 0, 1, 0, 1] ∧
    (points (exec (.objG10v1 (.parse ⟨⟨0xC0, 0, 0⟩, 0x00, [0, 9, 0xA5, 0x02]⟩)) (fed []))).map (·.map (·.raw)) =
      some [1, 0, 1, 0, 0, 1, 0, 1, 0, 1] := by decide

/-- The examples of R161 and R163. -/
theorem test_obj_boolflag :
    parsed .objG1v2 [0x81] = some [⟨7, 1, some 1, 0x81, true⟩] ∧
    parsed .objG10v2 [0x81] = some [⟨7, 1, some 1, 0x81, true⟩] := by decide

/-- The second examples of R164 to R167. -/
theorem test_obj_counter :
    parsed .objG20v1 [0x01, 0xFF, 0xFF, 0xFF, 0xFF] = some [⟨7, 0xFFFFFFFF, some 4294967295, 1, true⟩] ∧
    parsed .objG20v2 [0x01, 0xFF, 0xFF] = some [⟨7, 0xFFFF, some 65535, 1, true⟩] ∧
    parsed .objG20v5 [0xFF, 0xFF, 0xFF, 0xFF] = some [⟨7, 0xFFFFFFFF, some 4294967295, 0, false⟩] ∧
    parsed .objG20v6 [0xFF, 0xFF] = some [⟨7, 0xFFFF, some 65535, 0, false⟩] := by decide

/-- The last examples of R168 to R173. -/
theorem test_obj_analog_input :
    parsed .objG30v1 [0x01, 0xFE, 0xFF, 0xFF, 0xFF] = some [⟨7, 0xFFFFFFFE, some (-2), 1, true⟩] ∧
    parsed .objG30v2 [0x01, 0xFE, 0xFF] = some [⟨7, 0xFFFE, some (-2), 1, true⟩] ∧
    parsed .objG30v3 [0xFE, 0xFF, 0xFF, 0xFF] = some [⟨7, 0xFFFFFFFE, some (-2), 0, false⟩] ∧
    parsed .objG30v4 [0xFE, 0xFF] = some [⟨7, 0xFFFE, some (-2), 0, false⟩] ∧
    parsed .objG30v5 [0x01, 0, 0, 0xC0, 0x3F] = some [⟨7, 0x3FC00000, none, 1, true⟩] ∧
    parsed .objG30v6 [0x01, 0, 0, 0, 0, 0, 0, 0xF8, 0x3F] = some [⟨7, 0x3FF8000000000000, none, 1, true⟩] := by decide

/-- The last examples of R174 to R177. -/
theorem test_obj_analog_output :
    parsed .objG40v1 [0x01, 0xFE, 0xFF, 0xFF, 0xFF] = some [⟨7, 0xFFFFFFFE, some (-2), 1, true⟩] ∧
    parsed .objG40v2 [0x01, 0xFE, 0xFF] = some [⟨7, 0xFFFE, some (-2), 1, true⟩] ∧
    parsed .objG40v3 [0x01, 0, 0, 0xC0, 0x3F] = some [⟨7, 0x3FC00000, none, 1, true⟩] ∧
    parsed .objG40v4 [0x01, 0, 0, 0, 0, 0, 0, 0xF8, 0x3F] = some [⟨7, 0x3FF8000000000000, none, 1, true⟩] := by decide

/-- The last examples of R178 to R181: a status byte after the value, and no `online`. -/
theorem test_obj_command :
    parsed .objG41v1 [0xFE, 0xFF, 0xFF, 0xFF, 0x01] = some [⟨7, 0xFFFFFFFE, some (-2), 1, false⟩] ∧
    parsed .objG41v2 [0xFE, 0xFF, 0x00] = some [⟨7, 0xFFFE, some (-2), 0, false⟩] ∧
    parsed .objG41v3 [0, 0, 0xC0, 0x3F, 0x00] = some [⟨7, 0x3FC00000, none, 0, false⟩] ∧
    parsed .objG41v4 [0, 0, 0, 0, 0, 0, 0xF8, 0x3F, 0x00] = some [⟨7, 0x3FF8000000000000, none, 0, false⟩] := by decide

/-- A58 and A24. -/
theorem test_obj_other :
    ending (exec (.objOther 0x1E 0x07 (.parse ⟨⟨0xC0, 0, 0⟩, 0x28, [1, 0, 8, 0, 1, 0xFF, 0]⟩)) (fed [])) =
      some ⟨0x30, 4, 0, 0x1E07⟩ ∧
    ending (exec (.objOther 41 5 (.build ⟨false, 0, 2, .index [1], [⟨1, 0⟩]⟩)) (fed [])) = some ⟨0x38, 0, 0, 0x2905⟩ := by decide

/-- The point bytes of the examples of R160 to R181, written by an encoder: fragment bytes after the two header bytes. -/
def built (row : ObjUse → Instr) (raw : U64) (flags : Byte) : Option Bytes :=
  (output (exec (row (.build ⟨false, 0, 2, .range 0 0, [⟨raw, flags⟩]⟩)) (fed []))).map (fun x => x.bytes.drop 7)

theorem test_obj_build :
    built .objG1v1 1 0 = some [1] ∧ built .objG1v2 1 0x01 = some [0x81] ∧
    built .objG10v1 1 0 = some [1] ∧ built .objG10v2 0 0xFF = some [0x7F] ∧
    built .objG20v1 0xFF 1 = some [1, 0xFF, 0, 0, 0] ∧ built .objG20v2 0xFF 1 = some [1, 0xFF, 0] ∧
    built .objG20v5 0xFF 1 = some [0xFF, 0, 0, 0] ∧ built .objG20v6 0xFF 1 = some [0xFF, 0] ∧
    built .objG30v1 0xFFFFFFFE 1 = some [1, 0xFE, 0xFF, 0xFF, 0xFF] ∧ built .objG30v2 0xFFFE 1 = some [1, 0xFE, 0xFF] ∧
    built .objG30v3 0xFFFFFFFE 1 = some [0xFE, 0xFF, 0xFF, 0xFF] ∧ built .objG30v4 0xFFFE 1 = some [0xFE, 0xFF] ∧
    built .objG30v5 0x3FC00000 1 = some [1, 0, 0, 0xC0, 0x3F] ∧
    built .objG30v6 0x3FF8000000000000 1 = some [1, 0, 0, 0, 0, 0, 0, 0xF8, 0x3F] ∧
    built .objG40v1 0xFFFFFFFE 1 = some [1, 0xFE, 0xFF, 0xFF, 0xFF] ∧ built .objG40v2 0xFFFE 1 = some [1, 0xFE, 0xFF] ∧
    built .objG40v3 0x3FC00000 1 = some [1, 0, 0, 0xC0, 0x3F] ∧
    built .objG40v4 0x3FF8000000000000 1 = some [1, 0, 0, 0, 0, 0, 0, 0xF8, 0x3F] ∧
    built .objG41v1 0xFFFFFFFE 0 = some [0xFE, 0xFF, 0xFF, 0xFF, 0] ∧
    built .objG41v2 0x12345678 0 = some [0x78, 0x56, 0] ∧
    built .objG41v3 0x3FC00000 0 = some [0, 0, 0xC0, 0x3F, 0] ∧
    built .objG41v4 0x3FF8000000000000 0 = some [0, 0, 0, 0, 0, 0, 0xF8, 0x3F, 0] := by decide

/-! ### The parameters hang together (spec/00_scope.md R5) -/

theorem test_parameters :
    cfg.crcPolyR = cfg.crcPoly.reverse ∧ cfg.linkPayloadMax = 255 - cfg.lenBase ∧ cfg.segMax = cfg.linkPayloadMax - 1 ∧
    cfg.frameMax = frameLength cfg.linkPayloadMax ∧ cfg.tpSeqMod = 2 ^ 6 ∧ cfg.appSeqMod = 2 ^ 4 ∧
    cfg.rxBufMax = cfg.apduMax ∧ cfg.crcWidth = 16 ∧ outCapacity = 12288 := by decide

/-- `n` zero bytes, for the bounds of lengths. -/
def long (n : Nat) : Bytes := List.replicate n 0

theorem long_length (n : Nat) : (long n).length = n := List.length_replicate

/-! ### The hypotheses of the statements can be met: one theorem for each statement that has any, each clause at a bound of its
range -/

/-- A step's word that decodes, one that does not, writes of IN within its capacity and past it, an idle port, a table word. -/
theorem witness_StepRunsDecodedInstruction :
    (decode ⟨.op, [0x02], {}⟩ = .ok .crcRd ∧ decode ⟨.op, [], {}⟩ = .error .codeLength ∧
      (State.reset.setPort [.issue ⟨.op, [0x02], {}⟩]).port = .issue ⟨.op, [0x02], {}⟩ :: [] ∧
      (State.reset.setPort [.writeIn [1]]).port = .writeIn [1] :: [] ∧ State.reset.port = [] ∧
      decodeTableWord 8 0x02 = some .crcRd) ∧
    (State.reset.setPort [.writeIn (long 4096)]).port = .writeIn (long 4096) :: [] ∧ (long 4096).length ≤ 4096 ∧
    (State.reset.setPort [.writeIn (long 4097)]).port = .writeIn (long 4097) :: [] ∧ ¬(long 4097).length ≤ 4096 :=
  ⟨by decide, rfl, (long_length 4096).le, rfl, by simp [long_length]⟩

/-- An instruction with operands of every kind is well formed. -/
theorem witness_DecodeEncodeRoundTrip :
    (Instr.appEncWrite 5 ⟨true, 15, [⟨41, 2, .index [4], [⟨0x64, 0⟩]⟩, ⟨10, 1, .range 0 65535, []⟩, ⟨1, 1, .all, []⟩]⟩).WellFormed ∧
    (Instr.blk (.parse ⟨⟨1, 2, 3⟩, List.replicate 16 0, 7⟩)).WellFormed ∧ (Instr.illegal 0xFF).WellFormed ∧
    (Instr.objOther 0 0 (.parse ⟨⟨0, 0, 0⟩, 0, []⟩)).WellFormed := by decide

theorem witness_CommandCodesDecode :
    (∀ b ∈ [ReqBlock.mk 30 2 (.index [8])], b.form.fits = true) ∧
    (∀ b ∈ [DataBlock.mk 30 2 (.index [8]) [⟨1, 1⟩]], b.form.fits = true) := by decide

/-- Every end of the four ranges. -/
theorem witness_IllegalCommand :
    ∀ op ∈ [0x05, 0x0F, 0x12, 0x1F, 0x23, 0x2F, 0x35, (0xFF : Byte)],
      (0x05 ≤ op.toNat ∧ op.toNat ≤ 0x0F) ∨ (0x12 ≤ op.toNat ∧ op.toNat ≤ 0x1F) ∨
        (0x23 ≤ op.toNat ∧ op.toNat ≤ 0x2F) ∨ (0x35 ≤ op.toNat ∧ op.toNat ≤ 0xFF) := by decide

/-- A sound state with a message in progress. -/
theorem mid_sound : mid.Inv where
  rxLen_le := by decide
  idle_empty := by decide
  status_listed := by decide
  ok_no_error := by decide
  rxBuf_wf := by decide
  rxBuf_bound := by decide
  rxBuf_held := by
    intro k hk
    have : k < 2 := hk
    match k with
    | 0 => rfl
    | 1 => rfl
    | k + 2 => omega
  in_bound := by decide
  out_bound := by decide
  pts_bound := by decide

theorem witness_StepKeepsSoundState : ∃ s t : State, s.Inv ∧ s.rxActive = true ∧ step s = .next t :=
  ⟨mid, mid, mid_sound, rfl, rfl⟩

theorem witness_SoundRunsNeverFault : ∃ s : State, s.Inv ∧ s.rxActive = true := ⟨mid, mid_sound, rfl⟩

theorem witness_CrcAccWrittenByStreamOnly :
    (∃ t, exec .tpRst mid = .next t) ∧ Instr.tpRst ≠ .crcClr ∧ ∀ b, Instr.tpRst ≠ .crcUpd b :=
  ⟨⟨_, rfl⟩, by decide, fun _ h => by cases h⟩

/-- An instruction outside each of the excluded groups, and one that a clause is about. -/
theorem witness_TransportStateFrame :
    (∃ t, exec (.tpSeg 1) mid = .next t) ∧ runsTpRx (.tpSeg 1) = false ∧ Instr.tpSeg 1 ≠ .tpRst ∧
    (∃ t, exec .tpRx (mid.setIn [0x06, 3]) = .next t) ∧ runsTpSeg .tpRx = false ∧
    (∃ t, exec .tpRst mid = .next t) ∧ runsTpRx .tpRst = false :=
  ⟨⟨_, rfl⟩, rfl, by decide, ⟨_, rfl⟩, rfl, ⟨_, rfl⟩, rfl⟩

theorem witness_BufferFrame :
    (∃ t, exec .tpRst mid = .next t) ∧ isCommand .tpRst = true ∧ leavesOut .tpRst = true ∧ runsAppDec .tpRst = false :=
  ⟨⟨_, rfl⟩, rfl, rfl, rfl⟩

/-- A failing LINK.ENC, APP.DEC, LINK.DEC and TP.RX; the last with IN short of 4096 bytes. -/
theorem witness_FailureDeliversNothing :
    (∃ t, exec (.tpSeg 0) mid = .next t ∧ 0x10 ≤ t.status.toNat) ∧ leavesOut (.tpSeg 0) = false ∧
    (∃ t, exec .appDec mid = .next t ∧ 0x10 ≤ t.status.toNat) ∧ runsAppDec .appDec = true ∧ runsTpRx .appDec = false ∧
    (∃ t, exec .linkDec mid = .next t ∧ 0x10 ≤ t.status.toNat) ∧ runsLinkDec .linkDec = true ∧
    (∃ t, exec .tpRx (mid.setIn [7]) = .next t ∧ 0x10 ≤ t.status.toNat ∧ t.inBuf.length ≤ 4096) ∧ runsTpRx .tpRx = true :=
  ⟨⟨_, rfl, by decide⟩, rfl, ⟨_, rfl, by decide⟩, rfl, rfl, ⟨_, rfl, by decide⟩, rfl, ⟨_, rfl, by decide, by decide⟩, rfl⟩

theorem witness_NoResultsLeftOver :
    (∃ t, exec .tpRst mid = .next t) ∧ namesNoResult .tpRst = true ∧ (∃ t, exec (.linkEnc ⟨1, 2, 3⟩) mid = .next t) ∧
    namesNoResult (.linkEnc ⟨1, 2, 3⟩) = true := ⟨⟨_, rfl⟩, rfl, ⟨_, rfl⟩, rfl⟩

theorem witness_EndsWithListedStatus :
    (∃ t, exec .tpRx (mid.setIn [0x06, 3]) = .next t ∧ t.status.toNat < 0x10) ∧
    (∃ t, exec .tpRx (mid.setIn []) = .next t ∧ t.status.toNat < 0x10) :=
  ⟨⟨_, rfl, by decide⟩, ⟨_, rfl, by decide⟩⟩

/-- Two states of one IN and different registers. -/
theorem witness_StatelessOperationsSeeOnlyIn :
    mid.inBuf = (fed [0x45, 1, 2]).inBuf ∧ mid ≠ fed [0x45, 1, 2] ∧ Instr.crcCalc ≠ .crcRd ∧
    runsTpSeg .crcCalc = false ∧ runsTpRx .crcCalc = false ∧ (∃ t, exec .crcCalc mid = .next t) ∧
    (∃ t, exec .crcCalc (fed [0x45, 1, 2]) = .next t) ∧ namesNoResult .crcCalc = false ∧
    leavesOut (.linkEnc ⟨1, 2, 3⟩) = false ∧ runsAppDec .appDec = true :=
  ⟨rfl, by decide, by decide, rfl, rfl, ⟨_, rfl⟩, ⟨_, rfl⟩, rfl, rfl, rfl⟩

/-- The first and the last bit of a string. -/
theorem witness_CrcAlgebra : 0 < 8 * ([0xC0] : Bytes).length ∧ 7 < 8 * ([0xC0] : Bytes).length := by decide

theorem witness_CrcWholeStringOperations :
    (fed [0xFF]).inBuf.length < 2 ∧ (fed [0xFF, 0xFF]).inBuf = [] ++ [0xFF, 0xFF] := by decide

/-- Payloads of 0, 250 and 251 bytes. -/
theorem witness_LinkEncodeBuildsFrame :
    (fed []).inBuf.length ≤ 250 ∧ (fed (long 250)).inBuf.length ≤ 250 ∧
    250 < (fed (long 251)).inBuf.length := by simp [fed, long_length]

/-- Frame L2, whole. -/
def frameL2 : Bytes := [0x05, 0x64, 0x06, 0x44, 0x01, 0, 0, 0, 0x6C, 0xEA, 0xC0, 0x1D, 0x0A]

/-- Frame L5 with byte 28 changed: its second block is bad, its first is good (L30). -/
def frameL30 : Bytes :=
  [0x05, 0x64, 0x16, 0xC4, 0x04, 0, 0x01, 0x04, 0x2C, 0x9F, 0, 1, 2, 3, 4, 5, 6, 7, 8, 9, 10, 11, 12, 13, 14, 15, 0xEC, 0x10,
   0x11, 0x94, 0x4D]

/-- L20, L21, L16, L34, L32, L18, each clause before the blocks. -/
theorem witness_LinkDecodeChecksInOrder :
    (1 ≤ ([0x64] : Bytes).length ∧ byteAt [0x64] 0 ≠ 0x05) ∧
    (2 ≤ ([0x05, 0x65] : Bytes).length ∧ byteAt [0x05, 0x65] 0 = 0x05 ∧ byteAt [0x05, 0x65] 1 ≠ 0x64) ∧
    (frameL2.take 9).length < 10 ∧ byteAt frameL2 0 = 0x05 ∧ byteAt frameL2 1 = 0x64 ∧
    crc16 (slice ([0x05, 0x64, 0x04, 0x44, 0x01, 0, 0, 0, 0, 0]) 2 6) ≠
      word16At [0x05, 0x64, 0x04, 0x44, 0x01, 0, 0, 0, 0, 0] 8 ∧
    crc16 (slice ([0x05, 0x64, 0x04, 0x44, 0x01, 0, 0, 0, 0xDB, 0xCC]) 2 6) =
      word16At [0x05, 0x64, 0x04, 0x44, 0x01, 0, 0, 0, 0xDB, 0xCC] 8 ∧
    crc16 (slice (frameL2.take 12) 2 6) = word16At (frameL2.take 12) 8 ∧ 5 ≤ (byteAt frameL2 2).toNat ∧
    (frameL2.take 12).length < 10 + 1 + 2 * ((1 + 15) / 16) := by decide +kernel

/-- A whole frame with a bad block behind a good one (L30), and one with none (L2). -/
theorem witness_LinkDecodeChecksInOrder_blocks :
    (byteAt frameL30 2).toNat - 5 = 17 ∧ crc16 (slice frameL30 2 6) = word16At frameL30 8 ∧
    10 + 17 + 2 * ((17 + 15) / 16) ≤ frameL30.length ∧ blockBad frameL30 17 1 ∧ ¬blockBad frameL30 17 0 ∧
    10 + 1 + 2 * ((1 + 15) / 16) ≤ frameL2.length ∧ ¬blockBad frameL2 1 0 := by
  unfold blockBad
  decide +kernel

theorem witness_LinkRoundTrip : (long 250).length ≤ 250 := by simp [long_length]

/-- The first and last bits of each of the statement's three parts of a frame of one block. -/
theorem witness_LinkSingleBitRejection :
    (∃ u, exec (.linkEnc ⟨0x44, 1, 0⟩) (State.reset.setIn [0xC0]) = .next u ∧ u.outBuf.length = 13) ∧
    (0 / 8 < 2 ∧ 15 / 8 < 2) ∧ (2 ≤ 16 / 8 ∧ 79 / 8 < 10) ∧ (10 ≤ 80 / 8 ∧ 103 < 8 * 13) :=
  ⟨⟨_, rfl, by decide⟩, by decide, by decide, by decide⟩

theorem witness_LinkDecodeIgnoresLaterBytes :
    ∃ t, exec .linkDec (State.reset.setIn [0x64]) = .next t ∧ t.status ≠ 0x10 := ⟨_, rfl, by decide⟩

/-- L18, and the frame whole. -/
theorem witness_LinkTruncatedIsRetryable :
    ending (exec .linkDec (State.reset.setIn (frameL2.take 12))) = some ⟨0x10, 12, 13, 12⟩ ∧
    ending (exec .linkDec (State.reset.setIn (frameL2.take 12 ++ [0x0A]))) = some ⟨0x00, 0, 0, 0⟩ := by decide +kernel

/-- Segment sizes 0, 1, 249, 250. -/
theorem witness_TpSegmentation :
    (0 : Byte).toNat < 1 ∧ 1 ≤ (1 : Byte).toNat ∧ (249 : Byte).toNat ≤ 249 ∧ 249 < (250 : Byte).toNat := by decide

/-- Headers with FIR, with and without FIN, and no payload byte. -/
theorem witness_TpReceiveFirstSegment :
    (mid.setIn [0x4A]).inBuf = 0x4A :: [] ∧ (0x4A : Byte).getLsbD 6 = true ∧ (0x4A : Byte).getLsbD 7 = false ∧
    (0xC0 : Byte).getLsbD 6 = true ∧ (0xC0 : Byte).getLsbD 7 = true ∧ ([] : Bytes).length ≤ 4096 := by decide

/-- The two headers that continue `mid`, and a message of 4096 bytes at its bound. -/
theorem witness_TpReceiveNextSegment :
    mid.rxActive = true ∧ (0x06 : Byte).getLsbD 6 = false ∧ (0x06 : Byte).setWidth 6 = mid.rxExpect ∧
    (0x06 : Byte).getLsbD 7 = false ∧ (0x86 : Byte).getLsbD 6 = false ∧ (0x86 : Byte).setWidth 6 = mid.rxExpect ∧
    (0x86 : Byte).getLsbD 7 = true ∧ mid.rxBuf.readBytes 0 mid.rxLen.toNat = some [1, 2] ∧
    mid.rxLen.toNat + (long 4094).length ≤ 4096 := by
  simp [mid, State.reset, Memory.readBytes, Memory.read, long_length]

/-- Each refusal; the overflow by one byte. -/
theorem witness_TpReceiveRefusals :
    State.reset.rxActive = false ∧ mid.rxActive = true ∧ (0x07 : Byte).getLsbD 6 = false ∧
    (0x07 : Byte).setWidth 6 ≠ mid.rxExpect ∧ (0x06 : Byte).getLsbD 6 = false ∧ (0x06 : Byte).setWidth 6 = mid.rxExpect ∧
    4096 < mid.rxLen.toNat + (long 4095).length := by
  simp [mid, State.reset, long_length]

theorem witness_TpLinkOnly : (mid.setIn []).inBuf = [] := rfl

/-- A fragment of the greatest length and the least and greatest segment sizes. -/
theorem witness_TpRoundTrip :
    (long 4096).length ≤ 4096 ∧ 1 ≤ (1 : Byte).toNat ∧ (249 : Byte).toNat ≤ 249 := by simp [long_length]

theorem witness_TpMismatchLosesMessage :
    mid.rxActive = true ∧ (0x07 : Byte).getLsbD 6 = false ∧ (0x07 : Byte).setWidth 6 ≠ mid.rxExpect ∧
    ∀ p ∈ ([[0x08], [0x89, 1]] : List Bytes), p ≠ [] ∧ startsMessage p = false := by decide

theorem witness_TpNeverMixesMessages :
    State.reset.rxActive = false ∧ ∃ t, feed [[0x45, 1], [0x4A, 7], [0x8B, 8]] State.reset = .next t ∧ t.status = 0x00 :=
  ⟨rfl, _, rfl, by decide⟩

theorem witness_StackRoundTrip :
    (long 4096).length ≤ 4096 ∧ 1 ≤ (1 : Byte).toNat ∧ (249 : Byte).toNat ≤ 249 := by simp [long_length]

/-- A9's blocks: the first is accepted, the second is backwards by one; and a list that is accepted whole. -/
theorem witness_AppReadEncodes :
    requestAccepted ⟨1, 1, .range 0 0⟩ ∧ (4 : U16).toNat < (5 : U16).toNat ∧ requestAccepted ⟨30, 2, .index [8]⟩ ∧
    requestAccepted ⟨30, 0, .all⟩ := by
  refine ⟨?_, by decide, ?_, ?_⟩ <;> intro start stop h <;> cases h
  decide

/-- A block for each refusal (A24, A25, A26, A27, A28 and a range of one point with none), and accepted ones. -/
theorem witness_AppWriteAndRespEncode :
    BlockRefused ⟨41, 5, .index [1], [⟨1, 0⟩]⟩ 0x38 0 0x2905 ∧ BlockRefused ⟨41, 2, .all, []⟩ 0x39 0 0x06 ∧
    BlockRefused ⟨41, 2, .range 3 2, []⟩ 0x39 3 2 ∧ BlockRefused ⟨10, 1, .index [0], [⟨1, 0⟩]⟩ 0x39 0 0x28 ∧
    BlockRefused ⟨41, 2, .index [1, 2], [⟨1, 0⟩]⟩ 0x39 2 1 ∧ BlockRefused ⟨41, 2, .range 0 0, []⟩ 0x39 1 0 ∧
    blockAccepted ⟨41, 2, .index [4], [⟨0x64, 0⟩]⟩ ∧ blockAccepted ⟨10, 1, .range 5 5, [⟨1, 0⟩]⟩ :=
  ⟨.unknownObject (by decide), .formAll (d := rowG41V2.desc) (by decide) rfl,
    .backwards (d := rowG41V2.desc) (start := 3) (stop := 2) (by decide) rfl (by decide),
    .packedIndex (d := rowG10V1.desc) (by decide) rfl (by decide),
    .countOfIndex (d := rowG41V2.desc) (idx := [1, 2]) (by decide) rfl (by decide) (by decide),
    .countOfRange (d := rowG41V2.desc) (start := 0) (stop := 0) (by decide) rfl (by decide) (by decide),
    ⟨rowG41V2.desc, by decide, by decide, by decide⟩, ⟨rowG10V1.desc, by decide, by decide, by decide⟩⟩

/-- A row of each kind and flag position, ranges that end at 255 and at 256. -/
theorem witness_DataBlockBytes :
    lookupObj 1 1 = some rowG1V1.desc ∧ rowG1V1.desc.kind = .packed ∧
    lookupObj 1 2 = some rowG1V2.desc ∧ rowG1V2.desc.kind = .boolflag ∧
    lookupObj 20 5 = some rowG20V5.desc ∧ rowG20V5.desc.kind = .int ∧ rowG20V5.desc.flagPos = .none ∧
    lookupObj 30 6 = some rowG30V6.desc ∧ rowG30V6.desc.kind = .float ∧ rowG30V6.desc.flagPos = .before ∧
    lookupObj 41 2 = some rowG41V2.desc ∧ rowG41V2.desc.kind = .int ∧ rowG41V2.desc.flagPos = .after ∧
    ([⟨1, 0⟩] : List PointEntry).length = ([7] : List U16).length ∧
    ([⟨1, 0⟩] : List PointEntry).length = (255 : U16).toNat - (255 : U16).toNat + 1 ∧
    ([⟨1, 0⟩, ⟨0, 0⟩] : List PointEntry).length = (256 : U16).toNat - (255 : U16).toNat + 1 := by decide

theorem witness_AppRoundTrip :
    ∃ t, exec (.appEncResp ⟨⟨true, true, false, false, 0⟩, 0, 0, [⟨30, 2, .index [8], [⟨0xFF, 1⟩]⟩]⟩) (fed []) = .next t ∧
      t.status = 0x00 := ⟨_, rfl, by decide⟩

/-- The object block of the example of R145: one point with its index. -/
theorem indexBlock_reads : BlockReads [0x1E, 0x02, 0x28, 1, 0, 8, 0, 1, 0xFF, 0] (blockRecords ⟨30, 2, .index [8], [⟨0xFF, 1⟩]⟩) :=
  .index (d := rowG30V2.desc) (idx := [8]) (points := [⟨0xFF, 1⟩]) (by decide) (by decide) (by decide) rfl

/-- Three packed points in a byte whose five padding bits are 1, under two-byte bounds that would fit one byte. -/
theorem paddedBlock_reads : BlockReads [0x01, 0x01, 0x01, 254, 0, 0, 1, 0xFD] (packedRecords rowG1V1.desc 1 1 254 3 [0xFD]) :=
  .packed (d := rowG1V1.desc) (start := 254) (stop := 256) (field := [0x01, 254, 0, 0, 1]) (data := [0xFD]) (by decide)
    (by decide) (by decide) (by decide)

/-- The padding of a packed block is no point: three records, of the bits 1, 0 and 1 (R62, R149), and the decoder's are those
of `packedRecords`. -/
theorem test_dec_packed_padding :
    points (exec .appDec (fed ([0xC0, 0x81, 0, 0] ++ [0x01, 0x01, 0x01, 254, 0, 0, 1, 0xFD]))) =
      some [⟨254, 1, some 1, 0, false⟩, ⟨255, 0, some 0, 0, false⟩, ⟨256, 1, some 1, 0, false⟩] ∧
    points (.next { fed [] with pts := packedRecords rowG1V1.desc 1 1 254 3 [0xFD] }) =
      some [⟨254, 1, some 1, 0, false⟩, ⟨255, 0, some 0, 0, false⟩, ⟨256, 1, some 1, 0, false⟩] := by decide

theorem witness_AppDecDecodesFragment :
    (∀ b ∈ [([0x1E, 0x02, 0x28, 1, 0, 8, 0, 1, 0xFF, 0], blockRecords ⟨30, 2, .index [8], [⟨0xFF, 1⟩]⟩),
        ([0x01, 0x01, 0x01, 254, 0, 0, 1, 0xFD], packedRecords rowG1V1.desc 1 1 254 3 [0xFD])], BlockReads b.1 b.2) ∧
    blockAccepted ⟨30, 2, .index [8], [⟨0xFF, 1⟩]⟩ ∧ (Form.index [8]).fits = true ∧
    ([1, 0xFF, 0] : Bytes).length = pointSize rowG30V2.desc := by
  refine ⟨?_, ⟨rowG30V2.desc, by decide, by decide, by decide⟩, by decide, by decide⟩
  simp only [List.forall_mem_cons]
  exact ⟨indexBlock_reads, paddedBlock_reads, by simp⟩

/-- The header errors at their bounds, a padded block before the bad one, and for each clause a bad block: too short by one,
of an unknown object, with an unknown qualifier, with a short or backwards range field, with data short by one byte. -/
theorem witness_AppDecReportsFirstError :
    (fed [0xC0]).inBuf.length < 2 ∧ (0x82 : Byte) ≠ 0x81 ∧ (0x01 : Byte) ≠ 0x00 ∧ ([0] : Bytes).length < 2 ∧
    (∃ ps, BlockReads [0x01, 0x01, 0x01, 254, 0, 0, 1, 0xFD] ps) ∧
    (1 ≤ ([0x1E, 0x02] : Bytes).length ∧ ([0x1E, 0x02] : Bytes).length < 3) ∧
    lookupObj 30 7 = none ∧ lookupObj 30 2 = some rowG30V2.desc ∧ rowG30V2.desc.kind ≠ .packed ∧
    lookupObj 1 1 = some rowG1V1.desc ∧ rowG1V1.desc.kind = .packed ∧
    ([0] : Bytes).length < 2 ∧ ([0, 0, 1] : Bytes).length < 4 ∧ (4 : Byte).toNat < (5 : Byte).toNat ∧
    (255 : U16).toNat < (256 : U16).toNat ∧
    ([] : Bytes).length < ((0 : Byte).toNat - (0 : Byte).toNat + 1 + 7) / 8 ∧
    ([1, 0xFF] : Bytes).length < ((0 : Byte).toNat - (0 : Byte).toNat + 1) * pointSize rowG30V2.desc ∧
    ([8, 0, 1, 0xFF] : Bytes).length < (1 : U16).toNat * (2 + pointSize rowG30V2.desc) :=
  ⟨by decide, by decide, by decide, by decide, ⟨_, paddedBlock_reads⟩, by decide, by decide, by decide, by decide,
    by decide, by decide, by decide, by decide, by decide, by decide, by decide, by decide, by decide⟩

theorem witness_AppDecAllOrNothing : (∃ t, exec .appDec (fed [0xC5, 0x00]) = .next t) ∧ ∃ t, exec .appDec (fed []) = .next t :=
  ⟨⟨_, rfl⟩, ⟨_, rfl⟩⟩

theorem witness_DecodedPointsAgreeWithTable :
    ∃ t, exec .appDec (fed [0xC0, 0x81, 0, 0, 0x1E, 0x02, 0x28, 1, 0, 8, 0, 1, 0xFF, 0]) = .next t ∧ t.pts ≠ [] :=
  ⟨_, rfl, by decide⟩

/-- A pair no row has. -/
theorem witness_ObjectTable : lookupObj 30 7 = none ∧ lookupObj 0 0 = none := by decide

theorem witness_LinkHeaderItem :
    (fed (long 250)).inBuf.length ≤ 250 ∧ 250 < (fed (long 251)).inBuf.length ∧
    (0x793C : U16) = crc16 ([0x05, 0x44] ++ le16 1 ++ le16 0) :=
  ⟨by simp [fed, long_length], by simp [fed, long_length], by decide +kernel⟩

/-- Blocks of 1 and of 16 bytes, a good and a bad CRC. -/
theorem witness_DataBlockItem :
    1 ≤ ([0xC0] : Bytes).length ∧ (long 16).length ≤ 16 ∧ (0x0A1D : U16) = crc16 [0xC0] ∧
    (0x0A9D : U16) ≠ crc16 [0xC0] := by decide

theorem witness_TransportHeaderItem :
    1 ≤ (1 : Byte).toNat ∧ (249 : Byte).toNat ≤ 249 ∧ (fed [7]).inBuf.length ≤ (1 : Byte).toNat ∧
    (long 4095).length ≤ 4095 := by simp [fed, long_length]

theorem witness_ControlAndIndicationItems :
    (ApcParse.mk ⟨true, true, false, false, 5⟩ [0x00]).tail = [0x00] ∧
    (ApcParse.mk ⟨true, true, true, false, 7⟩ [0x81, 0x90, 1]).tail = [0x81, 0x90, 1] ∧
    (IinParse.mk 0xE7 0x90 1 []).tail = [] ∧ blockAccepted ⟨30, 2, .index [8], [⟨0xFF, 1⟩]⟩ :=
  ⟨rfl, rfl, rfl, ⟨rowG30V2.desc, by decide, by decide, by decide⟩⟩

/-- The ends of both ranges of other codes, and blocks the builders accept. -/
theorem witness_RequestFunctionCodes :
    (∀ code ∈ [0x06, 0x80, 0x82, (0xFF : Byte)],
      (0x06 ≤ code.toNat ∧ code.toNat ≤ 0x80) ∨ (0x82 ≤ code.toNat ∧ code.toNat ≤ 0xFF)) ∧
    blockAccepted ⟨41, 2, .index [4], [⟨0x64, 0⟩]⟩ ∧ BlockRefused ⟨41, 2, .all, []⟩ 0x39 0 0x06 :=
  ⟨by decide, ⟨rowG41V2.desc, by decide, by decide, by decide⟩, .formAll (d := rowG41V2.desc) (by decide) rfl⟩

theorem witness_ConfirmAndResponseCodes :
    (∃ block ps, BlockReads block ps) ∧ blockAccepted ⟨30, 2, .index [8], [⟨0xFF, 1⟩]⟩ ∧
    (FcParse.mk 0xC0 [0]).tail.length < 2 :=
  ⟨⟨_, _, paddedBlock_reads⟩, ⟨rowG30V2.desc, by decide, by decide, by decide⟩, by decide⟩

/-- Ranges of one packed point at 255 under one-byte bounds and of three from 254 under two-byte bounds; ranges that run
backwards by one. -/
theorem witness_RangeQualifiers :
    (∃ ps, BlockReads ([1, 1, 0x00] ++ [255, 255, 0xFF]) ps) ∧ (∃ ps, BlockReads ([1, 1, 0x01] ++ [254, 0, 0, 1, 0xFD]) ps) ∧
    lookupObj 30 4 = some rowG30V4.desc ∧ (255 : U16).toNat ≤ 255 ∧
    (254 : U16).toNat < (255 : U16).toNat ∧ (256 : U16).toNat < (257 : U16).toNat :=
  ⟨⟨_, .packed (d := rowG1V1.desc) (start := 255) (stop := 255) (field := [0x00, 255, 255]) (data := [0xFF]) (by decide)
    (by decide) (by decide) (by decide)⟩, ⟨_, paddedBlock_reads⟩, by decide, by decide, by decide, by decide⟩

theorem witness_AllAndOtherQualifiers :
    lookupObj 30 2 = some rowG30V2.desc ∧ (0x07 : Byte) ∉ qualifierCodes ∧ (0x27 : Byte) ∉ qualifierCodes ∧
    lookupObj 30 7 = none := by decide

/-- A list of one index and of none; a PACKED object with a whole count field. -/
theorem witness_CountIndexQualifier :
    (∃ ps, BlockReads ([30, 2, 0x28] ++ [1, 0, 8, 0, 1, 0xFF, 0]) ps) ∧ (∃ ps, BlockReads ([30, 2, 0x28] ++ [0, 0]) ps) ∧
    lookupObj 1 1 = some rowG1V1.desc ∧ rowG1V1.desc.kind = .packed ∧ 2 ≤ ([1, 0] : Bytes).length :=
  ⟨⟨_, indexBlock_reads⟩, ⟨_, .index (d := rowG30V2.desc) (idx := []) (points := []) (by decide) (by decide) (by decide) rfl⟩,
    by decide, by decide, by decide⟩

/-- A block of a PACKED row and one of another, each with its qualifier and the bytes after it. -/
theorem witness_ObjectRowItems :
    ((.objG30v2, 30, 2) : (ObjUse → Instr) × Byte × Byte) ∈ objectRows ∧
    ((.objG1v1, 1, 1) : (ObjUse → Instr) × Byte × Byte) ∈ objectRows ∧
    (∃ ps, BlockReads ([30, 2, 0x28] ++ [1, 0, 8, 0, 1, 0xFF, 0]) ps) ∧
    (∃ ps, BlockReads ([1, 1, 0x01] ++ [254, 0, 0, 1, 0xFD]) ps) :=
  ⟨by simp [objectRows], by simp [objectRows], ⟨_, indexBlock_reads⟩, ⟨_, paddedBlock_reads⟩⟩

theorem witness_UnknownObjectItem : ∀ x ∈ objectRows, x.2 ≠ (30, 7) := by
  simp [objectRows]

end Sys2Proof.Tests
end

/-! Every instruction runs one of the operations the host can command, on IN or on an operand written into IN first
(spec/30_encoding.md R45 to R48; log entry 2). What a command does is thereby said once for the 57 rows of the opcode
table. -/

namespace Sys2Proof.Machine

/-! ### The instruction's operation and operand -/

/-- The commands of R47 and the illegal command of R48, apart from the wire items. -/
inductive Operation where
  | crcClr
  | crcUpd (b : Byte)
  | crcRd
  | crcCalc
  | crcChk
  | linkEnc (a : LinkAddr)
  | linkDec
  | tpSeg (seg : Byte)
  | tpRx
  | tpRst
  | appEncRead (a : ReadArgs)
  | appEncWrite (func : Byte) (a : WriteArgs)
  | appEncConfirm (a : ConfirmArgs)
  | appEncResp (a : RespArgs)
  | appDec
  | illegal (op : Byte)

/-- The instruction that commands an operation. -/
def Operation.instr : Operation → Instr
  | .crcClr => .crcClr
  | .crcUpd b => .crcUpd b
  | .crcRd => .crcRd
  | .crcCalc => .crcCalc
  | .crcChk => .crcChk
  | .linkEnc a => .linkEnc a
  | .linkDec => .linkDec
  | .tpSeg seg => .tpSeg seg
  | .tpRx => .tpRx
  | .tpRst => .tpRst
  | .appEncRead a => .appEncRead a
  | .appEncWrite func a => .appEncWrite func a
  | .appEncConfirm a => .appEncConfirm a
  | .appEncResp a => .appEncResp a
  | .appDec => .appDec
  | .illegal op => .illegal op

/-- The instructions whose operation neither builds nor parses a wire item. -/
def commandOnly : Instr → Bool
  | .crcClr | .crcUpd _ | .crcRd | .crcCalc | .crcChk | .tpRst | .illegal _ => true
  | _ => false

/-- What an instruction runs: an operation, and the bytes it writes into IN before, if it writes any. -/
structure Run where
  op      : Operation
  operand : Option Bytes

/-- An Application item: built by the given encoder, parsed by APP.DEC from the given bytes. -/
def appRun {α β : Type} (encoder : α → Operation) (operand : β → Bytes) : Use α β → Run
  | .build a => ⟨encoder a, none⟩
  | .parse p => ⟨.appDec, some (operand p)⟩

/-- A function code item stands second in the fragment APP.DEC parses. -/
def fcRun {α : Type} (fc : Byte) (encoder : α → Operation) : Use α FcParse → Run :=
  appRun encoder (fun p => [p.apc, fc] ++ p.tail)

/-- The fragment in which APP.DEC parses a qualifier item. -/
def qualOperand (q : Byte) (p : QualParse) : Bytes := responseHead p.ctx ++ [p.group, p.variation, q] ++ p.tail

/-- A qualifier item is built by APP.ENC.READ of one request block. -/
def qualRun {α : Type} (q : Byte) (block : α → QualBuild) (form : α → Form) : Use α QualParse → Run :=
  appRun (fun b => .appEncRead ⟨(block b).con, (block b).seq, [⟨(block b).group, (block b).variation, form b⟩]⟩)
    (qualOperand q)

/-- An object item is built by APP.ENC.WRITE of one data block. -/
def objRun (g v : Byte) : ObjUse → Run :=
  appRun (fun b => .appEncWrite b.func ⟨b.con, b.seq, [⟨g, v, b.form, b.points⟩]⟩)
    (fun p => responseHead p.ctx ++ [g, v, p.qualifier] ++ p.tail)

/-- What each instruction runs. -/
def runOf : Instr → Run
  | .crcClr => ⟨.crcClr, none⟩
  | .crcUpd b => ⟨.crcUpd b, none⟩
  | .crcRd => ⟨.crcRd, none⟩
  | .crcCalc => ⟨.crcCalc, none⟩
  | .crcChk => ⟨.crcChk, none⟩
  | .linkEnc a => ⟨.linkEnc a, none⟩
  | .linkDec => ⟨.linkDec, none⟩
  | .tpSeg seg => ⟨.tpSeg seg, none⟩
  | .tpRx => ⟨.tpRx, none⟩
  | .tpRst => ⟨.tpRst, none⟩
  | .appEncRead a => ⟨.appEncRead a, none⟩
  | .appEncWrite func a => ⟨.appEncWrite func a, none⟩
  | .appEncConfirm a => ⟨.appEncConfirm a, none⟩
  | .appEncResp a => ⟨.appEncResp a, none⟩
  | .appDec => ⟨.appDec, none⟩
  | .illegal op => ⟨.illegal op, none⟩
  | .lnk (.build a) => ⟨.linkEnc a, none⟩
  | .lnk (.parse p) => ⟨.linkDec, some (lnkBytes p ++ p.tail)⟩
  | .blk (.build b) => ⟨.linkEnc b.addr, some b.payload⟩
  | .blk (.parse p) => ⟨.linkDec, some (oneBlockFrame p)⟩
  | .tph (.build seg) => ⟨.tpSeg seg, none⟩
  | .tph (.parse p) => ⟨.tpRx, some (tphByte p.fin p.fir p.seq :: p.data)⟩
  | .apc u => appRun .appEncResp (fun p => apcByte p.ctrl :: p.tail) u
  | .iin u => appRun .appEncResp (fun p => responseHead ⟨p.apc, p.iin1, p.iin2⟩ ++ p.tail) u
  | .fcConfirm u => fcRun cfg.fcConfirm .appEncConfirm u
  | .fcRead u => fcRun cfg.fcRead .appEncRead u
  | .fcWrite u => fcRun cfg.fcWrite (.appEncWrite cfg.fcWrite) u
  | .fcSelect u => fcRun cfg.fcSelect (.appEncWrite cfg.fcSelect) u
  | .fcOperate u => fcRun cfg.fcOperate (.appEncWrite cfg.fcOperate) u
  | .fcDirectOperate u => fcRun cfg.fcDirectOperate (.appEncWrite cfg.fcDirectOperate) u
  | .fcResponse u => fcRun cfg.fcResponse .appEncResp u
  | .fcOther code u => fcRun code (.appEncWrite code) u
  | .qualRange8 u => qualRun cfg.qualRange8 (·.block) (fun b => .range (b.start.setWidth 16) (b.stop.setWidth 16)) u
  | .qualRange16 u => qualRun cfg.qualRange16 (·.block) (fun b => .range b.start b.stop) u
  | .qualAll u => qualRun cfg.qualAll id (fun _ => .all) u
  | .qualCountIndex16 u => qualRun cfg.qualCountIndex16 (·.block) (fun b => .index b.idx) u
  | .qualOther q p => ⟨.appDec, some (qualOperand q p)⟩
  | .objG1v1 u => objRun 1 1 u
  | .objG1v2 u => objRun 1 2 u
  | .objG10v1 u => objRun 10 1 u
  | .objG10v2 u => objRun 10 2 u
  | .objG20v1 u => objRun 20 1 u
  | .objG20v2 u => objRun 20 2 u
  | .objG20v5 u => objRun 20 5 u
  | .objG20v6 u => objRun 20 6 u
  | .objG30v1 u => objRun 30 1 u
  | .objG30v2 u => objRun 30 2 u
  | .objG30v3 u => objRun 30 3 u
  | .objG30v4 u => objRun 30 4 u
  | .objG30v5 u => objRun 30 5 u
  | .objG30v6 u => objRun 30 6 u
  | .objG40v1 u => objRun 40 1 u
  | .objG40v2 u => objRun 40 2 u
  | .objG40v3 u => objRun 40 3 u
  | .objG40v4 u => objRun 40 4 u
  | .objG41v1 u => objRun 41 1 u
  | .objG41v2 u => objRun 41 2 u
  | .objG41v3 u => objRun 41 3 u
  | .objG41v4 u => objRun 41 4 u
  | .objOther g v u => objRun g v u

/-- The state an operation runs on: the operand, if there is one, written into IN. -/
def State.withOperand (s : State) : Option Bytes → State
  | none => s
  | some bs => s.setIn bs

/-- What it means that an instruction runs an operation: its meaning is the operation's, it is of the same classes, and it is
the operation's own command unless the operation builds or parses wire items. -/
structure RunsAs (i : Instr) (r : Run) : Prop where
  exec_eq        : ∀ s, exec i s = exec r.op.instr (s.withOperand r.operand)
  runsTpSeg_eq   : runsTpSeg i = runsTpSeg r.op.instr
  runsTpRx_eq    : runsTpRx i = runsTpRx r.op.instr
  runsLinkDec_eq : runsLinkDec i = runsLinkDec r.op.instr
  runsAppDec_eq  : runsAppDec i = runsAppDec r.op.instr
  own_or_item    : i = r.op.instr ∨ commandOnly r.op.instr = false

/-- Every instruction runs its operation: a command its own, an item, in either use, the one that builds or parses it. -/
theorem runsAs_runOf (i : Instr) : RunsAs i (runOf i) := by
  cases i with
  | lnk u | blk u | tph u | apc u | iin u
  | fcConfirm u | fcRead u | fcWrite u | fcSelect u | fcOperate u | fcDirectOperate u | fcResponse u | fcOther _ u
  | qualRange8 u | qualRange16 u | qualAll u | qualCountIndex16 u
  | objG1v1 u | objG1v2 u | objG10v1 u | objG10v2 u | objG20v1 u | objG20v2 u | objG20v5 u | objG20v6 u
  | objG30v1 u | objG30v2 u | objG30v3 u | objG30v4 u | objG30v5 u | objG30v6 u
  | objG40v1 u | objG40v2 u | objG40v3 u | objG40v4 u | objG41v1 u | objG41v2 u | objG41v3 u | objG41v4 u
  | objOther _ _ u => cases u <;> exact ⟨fun _ => rfl, rfl, rfl, rfl, rfl, .inr rfl⟩
  | qualOther _ _ => exact ⟨fun _ => rfl, rfl, rfl, rfl, rfl, .inr rfl⟩
  | _ => exact ⟨fun _ => rfl, rfl, rfl, rfl, rfl, .inl rfl⟩

/-- An operation that builds and parses no item is run by its own command only. -/
theorem eq_of_runOf_instr {i c : Instr} (h : (runOf i).op.instr = c) (hc : commandOnly c = true) : i = c := by
  rcases (runsAs_runOf i).own_or_item with hi | hi
  · exact hi.trans h
  · rw [h, hc] at hi; cases hi

/-! ### The operand fits IN (R30) -/

/-- What a run writes into IN fits it. -/
def Run.OperandFits (r : Run) : Prop := ∀ bs, r.operand = some bs → bs.length ≤ cfg.apduMax

theorem Run.operandFits_none (o : Operation) : Run.OperandFits ⟨o, none⟩ := nofun

theorem Run.operandFits_some {o : Operation} {bs : Bytes} (h : bs.length ≤ cfg.apduMax) :
    Run.OperandFits ⟨o, some bs⟩ := by
  rintro _ ⟨⟩; exact h

theorem lengthProblem_eq_none {n : Nat} (h : lengthProblem n = none) : n ≤ cfg.apduMax := by
  unfold lengthProblem at h; split at h <;> [assumption; cases h]

theorem blockProblem_eq_none {p : Bytes} (h : blockProblem p = none) : p.length ≤ cfg.blockMax := by
  unfold blockProblem at h
  split at h
  · exact And.right ‹_›
  · cases h

/-- An operand of the length the check was made with fits. -/
theorem Run.operandFits_of_lengthProblem {o : Operation} {bs : Bytes} {n : Nat} (h : lengthProblem n = none)
    (hn : bs.length = n) : Run.OperandFits ⟨o, some bs⟩ :=
  Run.operandFits_some (hn ▸ lengthProblem_eq_none h)

theorem fcRun_operandFits {α : Type} {fc : Byte} {encoder : α → Operation} {u : Use α FcParse}
    (h : ∀ p, u = .parse p → fcProblem p = none) : (fcRun fc encoder u).OperandFits := by
  cases u with
  | build a => exact Run.operandFits_none _
  | parse p => exact Run.operandFits_of_lengthProblem (h p rfl) (by simp +arith)

theorem qualOperand_length (q : Byte) (p : QualParse) : (qualOperand q p).length = objHeaderLen + p.tail.length := by
  simp +arith [qualOperand, responseHead, objHeaderLen]

theorem qualRun_operandFits {α : Type} {q : Byte} {block : α → QualBuild} {form : α → Form} {u : Use α QualParse}
    (h : ∀ p, u = .parse p → qualProblem p = none) : (qualRun q block form u).OperandFits := by
  cases u with
  | build a => exact Run.operandFits_none _
  | parse p => exact Run.operandFits_of_lengthProblem (h p rfl) (qualOperand_length q p)

theorem objRun_operandFits {g v : Byte} {u : ObjUse} (h : objProblem u = none) : (objRun g v u).OperandFits := by
  cases u with
  | build b => exact Run.operandFits_none _
  | parse p => exact Run.operandFits_of_lengthProblem h (by simp +arith [responseHead, objHeaderLen])

theorem oneBlockFrame_length (p : BlkParse) : (oneBlockFrame p).length = p.payload.length + 12 := by
  simp +arith [oneBlockFrame, header8]

/-- A well-formed instruction writes no more into IN than IN holds. -/
theorem runOf_operandFits {i : Instr} (h : i.WellFormed) : (runOf i).OperandFits := by
  cases i with
  | lnk u =>
    cases u with
    | build a => exact Run.operandFits_none _
    | parse p => exact Run.operandFits_of_lengthProblem h (by simp +arith [lnkBytes, cfg])
  | blk u =>
    cases u with
    | build b => exact Run.operandFits_some ((blockProblem_eq_none h).trans (by decide))
    | parse p =>
      have hp : p.payload.length ≤ 16 := blockProblem_eq_none h
      refine Run.operandFits_some ?_
      rw [oneBlockFrame_length]
      exact (Nat.add_le_add_right hp 12).trans (by decide)
  | tph u | apc u | iin u =>
    cases u with
    | build a => exact Run.operandFits_none _
    | parse p => exact Run.operandFits_of_lengthProblem h (by simp +arith [responseHead])
  | fcConfirm u | fcRead u | fcWrite u | fcSelect u | fcOperate u | fcDirectOperate u | fcResponse u =>
    exact fcRun_operandFits (fun p hp => by subst hp; exact h)
  | fcOther c u => exact fcRun_operandFits (fun p hp => by subst hp; exact (Option.or_eq_none_iff.1 h).2)
  | qualRange8 u | qualRange16 u | qualAll u | qualCountIndex16 u =>
    exact qualRun_operandFits (fun p hp => by subst hp; exact h)
  | qualOther q p =>
    exact Run.operandFits_of_lengthProblem (Option.or_eq_none_iff.1 h).2 (qualOperand_length q p)
  | objG1v1 u | objG1v2 u | objG10v1 u | objG10v2 u | objG20v1 u | objG20v2 u | objG20v5 u | objG20v6 u
  | objG30v1 u | objG30v2 u | objG30v3 u | objG30v4 u | objG30v5 u | objG30v6 u
  | objG40v1 u | objG40v2 u | objG40v3 u | objG40v4 u | objG41v1 u | objG41v2 u | objG41v3 u | objG41v4 u =>
    exact objRun_operandFits h
  | objOther g v u => exact objRun_operandFits (Option.or_eq_none_iff.1 h).2
  | _ => exact Run.operandFits_none _

end Sys2Proof.Machine

/-! The bounds of what the operations put into OUT and PTS (spec/20_memory.md R30, R31). -/

namespace Sys2Proof.Machine

/-! ### The Link unit -/

/-- Every data block is followed by two bytes of CRC (R50). -/
theorem encBlocks_length (k : Nat) (p : Bytes) (h : p.length ≤ cfg.blockMax * k) :
    (encBlocks k p).length = p.length + 2 * k := by
  induction k generalizing p with
  | zero =>
    obtain rfl : p = [] := by simpa using h
    rfl
  | succ k ih =>
    have hk : (p.drop cfg.blockMax).length ≤ cfg.blockMax * k := by
      rw [List.length_drop]; rw [Nat.mul_succ] at h; omega
    simp only [encBlocks, List.length_append, le16_length, ih _ hk, List.length_take, List.length_drop]
    omega

/-- The blocks of a payload hold it. -/
theorem le_blockMax_mul_blockCount (n : Nat) : n ≤ cfg.blockMax * blockCount n := by
  simp only [blockCount, ceilDiv, cfg]; omega

/-- The frame is as long as R100 says. -/
theorem frame_length (a : LinkAddr) (p : Bytes) : (frame a p).length = frameLength p.length := by
  rw [frame, List.length_append, encBlocks_length _ _ (le_blockMax_mul_blockCount _)]
  simp +arith [header8, frameLength, cfg]

/-- No frame is longer than `FRAME_MAX` (R51). -/
theorem frameLength_le {n : Nat} (h : n ≤ cfg.linkPayloadMax) : frameLength n ≤ cfg.frameMax := by
  simp only [frameLength, blockCount, ceilDiv, cfg] at *; omega

/-- A header that is believed announces no more payload than a frame can hold (R51). -/
theorem checkHeader_ok_le {buf : Bytes} {n : Nat} (h : checkHeader buf = .ok n) : n ≤ cfg.linkPayloadMax := by
  have hlen : (byteAt buf 2).toNat < 256 := (byteAt buf 2).isLt
  simp only [checkHeader] at h
  split_ifs at h
  cases h
  simp only [cfg]; omega

/-- The blocks of `n` payload bytes hold no more than `n`. -/
theorem decBlocks_length_le {buf : Bytes} {k n pos : Nat} {p : Bytes} (h : decBlocks buf k n pos = .ok p) :
    p.length ≤ n := by
  induction k generalizing n pos p with
  | zero => cases h; exact Nat.zero_le n
  | succ k ih =>
    simp only [decBlocks] at h
    split at h
    · cases h
    · split at h <;> cases h
      rename_i rest hrest
      have hk := ih hrest
      simp only [List.length_append, slice, List.length_take, List.length_drop]
      omega

/-! ### The Transport unit -/

/-- A segment list in OUT holds the fragment and, for each segment, a length byte and a header byte (R34). -/
theorem segmentLayout_segments_length_le (seg k : Nat) (fir : Bool) (q : BitVec 6) (a : Bytes) :
    (segmentLayout (segments seg k fir q a)).length ≤ a.length + 2 * k := by
  induction k generalizing fir q a with
  | zero => simp [segments, segmentLayout]
  | succ k ih =>
    have hk := ih false (q + 1) (a.drop seg)
    simp only [segmentLayout, List.length_drop] at hk
    simp only [segments, segmentLayout, List.flatMap_cons, List.length_append, List.length_cons, List.length_take]
    omega

/-- With at least one byte to a segment there are no more segments than bytes, but for the one of an empty fragment. -/
theorem segmentCount_le {n seg : Nat} (h : 1 ≤ seg) : segmentCount n seg ≤ max 1 n := by
  have hc : ceilDiv n seg < n + 1 := by
    rw [ceilDiv, Nat.div_lt_iff_lt_mul h, Nat.add_mul, Nat.one_mul]
    have := Nat.le_mul_of_pos_right n h
    omega
  rw [segmentCount]; omega

/-! ### The Application unit -/

/-- A point of an object row that is not PACKED takes a byte at least (R59, R60). -/
theorem one_le_pointSize {g v : Byte} {d : Descriptor} (h : lookupObj g v = some d) (hk : d.kind ≠ .packed) :
    1 ≤ pointSize d := by
  have rows : ∀ r ∈ cfg.objTable, r.desc.kind ≠ .packed → 1 ≤ pointSize r.desc := by decide
  obtain ⟨r, hr, rfl⟩ := Option.map_eq_some_iff.1 h
  exact rows r (List.mem_of_find?_eq_some hr) hk

/-- The fragment is read from `pos` up to `pos'`, and at most eight records come of each byte (R31, R155). -/
structure Reads (f : Bytes) (pos pos' : Nat) (ps : List PointRec) : Prop where
  inside : pos' ≤ f.length
  few    : ps.length + 8 * pos ≤ 8 * pos'

theorem decHeader_ok {f : Bytes} {hd : AppHeader} {pos : Nat} (h : decHeader f = .ok (hd, pos)) :
    2 ≤ pos ∧ pos ≤ f.length := by
  simp only [decHeader] at h
  split_ifs at h <;> cases h <;> omega

/-- A range field ends inside the fragment. -/
theorem decRange_ok {q : Byte} {f : Bytes} {pos pos' : Nat} {r : RangeField} (h : decRange q f pos = .ok (r, pos')) :
    pos ≤ pos' ∧ (pos ≤ f.length → pos' ≤ f.length) := by
  simp only [decRange] at h
  split_ifs at h
  · split at h <;> cases h; omega
  · split at h <;> cases h; omega
  · cases h; omega

theorem decPoints_reads {d : Descriptor} {g v : Byte} {r : RangeField} {f : Bytes} {k i pos pos' : Nat}
    {ps : List PointRec} (hd : 1 ≤ pointSize d) (hpos : pos ≤ f.length)
    (h : decPoints d g v r f k i pos = .ok (ps, pos')) : Reads f pos pos' ps := by
  induction k generalizing i pos ps with
  | zero => cases h; exact ⟨hpos, by simp⟩
  | succ k ih =>
    simp only [decPoints] at h
    split at h
    · cases h
    · split at h <;> cases h
      rename_i rest hrest
      obtain ⟨hin, hfew⟩ := ih (by omega) hrest
      exact ⟨hin, by simp only [List.length_cons]; omega⟩

theorem decData_reads {d : Descriptor} {g v : Byte} {r : RangeField} {f : Bytes} {pos pos' : Nat}
    {ps : List PointRec} (hd : lookupObj g v = some d) (hpos : pos ≤ f.length)
    (h : decData d g v r f pos = .ok (ps, pos')) : Reads f pos pos' ps := by
  simp only [decData] at h
  split at h
  · split at h <;> cases h
    refine ⟨by omega, ?_⟩
    simp only [List.length_map, List.length_range, ceilDiv]; omega
  · exact decPoints_reads (one_le_pointSize hd ‹_›) hpos h

theorem decBlock_reads {f : Bytes} {hoff pos' : Nat} {ps : List PointRec}
    (h : decBlock f hoff = .ok (ps, pos')) : Reads f hoff pos' ps := by
  simp only [decBlock] at h
  split at h
  · cases h
  · split at h
    · cases h
    · split at h
      · cases h
      · rename_i d hd _ r pos hr
        obtain ⟨hge, hle⟩ := decRange_ok hr
        split at h
        · cases h
        · obtain ⟨hin, hfew⟩ := decData_reads hd (hle (by omega)) h
          exact ⟨hin, by omega⟩

theorem decObjects_length_le {f : Bytes} {fuel pos : Nat} {ps : List PointRec} (hpos : pos ≤ f.length)
    (h : decObjects f fuel pos = .ok ps) : ps.length + 8 * pos ≤ 8 * f.length := by
  induction fuel generalizing pos ps with
  | zero => cases h; simp only [List.length_nil]; omega
  | succ fuel ih =>
    simp only [decObjects] at h
    split at h
    · split at h
      · cases h
      · split at h <;> cases h
        rename_i first pos' hfirst _ rest hrest
        obtain ⟨hin, hfew⟩ := decBlock_reads hfirst
        have := ih hin hrest
        simp only [List.length_append]; omega
    · cases h; simp only [List.length_nil]; omega

/-- The two header bytes at least hold no point, so the records stay below eight to a byte of the fragment (R31). -/
theorem decFragment_length_lt {f : Bytes} {hd : AppHeader} {ps : List PointRec}
    (h : decFragment f = .ok (hd, ps)) : ps.length < 8 * f.length := by
  simp only [decFragment] at h
  split at h
  · cases h
  · rename_i pos hhd
    obtain ⟨h2, hle⟩ := decHeader_ok hhd
    split at h
    · cases h
    · rename_i hps
      cases h
      have := decObjects_length_le hle hps
      omega

end Sys2Proof.Machine

/-! The invariant is kept by each single write, by each way an operation ends, by each operation, and so by every step. -/

namespace Sys2Proof.Machine

/-! ### Single writes and endings -/

theorem Done.code_mem (d : Done) : d.code ∈ statusCodes := by cases d <;> decide

theorem Err.code_mem (e : Err) : e.code ∈ statusCodes := by cases e <;> decide

theorem Err.le_code (e : Err) : 0x10 ≤ e.code.toNat := by cases e <;> decide

section
variable {s : State} (h : s.Inv)
include h

theorem State.Inv.setCrcAcc (v : U16) : (s.setCrcAcc v).Inv := { h with }
theorem State.Inv.setTxSeq (v : BitVec 6) : (s.setTxSeq v).Inv := { h with }
theorem State.Inv.setRxExpect (v : BitVec 6) : (s.setRxExpect v).Inv := { h with }
theorem State.Inv.setStale (v : Bool) : (s.setStale v).Inv := { h with }
theorem State.Inv.setPort (p : List HostAct) : (s.setPort p).Inv := { h with }

theorem State.Inv.setIn {bs : Bytes} (hb : bs.length ≤ cfg.apduMax) : (s.setIn bs).Inv := { h with in_bound := hb }

theorem State.Inv.setOut {bs : Bytes} (hb : bs.length ≤ outCapacity) : (s.setOut bs).Inv := { h with out_bound := hb }

theorem State.Inv.clearOut : (s.setOut []).Inv := h.setOut (Nat.zero_le _)

theorem State.Inv.setPts {ps : List PointRec} (hp : ps.length < 8 * cfg.apduMax) : (s.setPts ps).Inv :=
  { h with pts_bound := hp }

/-- No message in progress, or one of which nothing has come, is sound over any RX_BUF. -/
theorem State.Inv.setRx_zero (active : Bool) : (s.setRx active 0).Inv :=
  { h with
    rxLen_le := Nat.zero_le _
    idle_empty := fun _ => rfl
    rxBuf_held := fun _ hk => absurd hk (Nat.not_lt_zero _) }

theorem State.Inv.finish (d : Done) (r : Results) : (s.finish d r).Inv :=
  { h with
    status_listed := d.code_mem
    ok_no_error := fun _ => ⟨rfl, rfl, rfl⟩ }

theorem State.Inv.failWith (f : Fail) (r : Results) : (s.failWith f r).Inv :=
  { h with
    status_listed := f.err.code_mem
    ok_no_error := fun hlt => absurd hlt (Nat.not_lt.2 f.err.le_code) }

theorem State.Inv.withOperand {x : Option Bytes} (hx : ∀ bs, x = some bs → bs.length ≤ cfg.apduMax) :
    (s.withOperand x).Inv := by
  cases x with
  | none => exact h
  | some bs => exact h.setIn (hx bs rfl)

/-- A payload written behind the message in progress, within the capacity of RX_BUF (R120). -/
theorem State.Inv.appendRx {data : Bytes} (hact : s.rxActive = true)
    (hcap : s.rxLen.toNat + data.length ≤ cfg.rxBufMax) :
    ((s.setRxBuf (s.rxBuf.writeBytes s.rxLen.toNat data)).setRx s.rxActive
      (BitVec.ofNat 13 (s.rxLen.toNat + data.length))).Inv := by
  have hcap' : s.rxLen.toNat + data.length ≤ 4096 := hcap
  have hlen : (BitVec.ofNat 13 (s.rxLen.toNat + data.length)).toNat = s.rxLen.toNat + data.length := by
    rw [BitVec.toNat_ofNat]; omega
  refine { h with
    rxLen_le := hlen.le.trans hcap
    idle_empty := ?idle_empty
    rxBuf_wf := Memory.writeBytes_wf h.rxBuf_wf _ _
    rxBuf_bound := ?rxBuf_bound
    rxBuf_held := ?rxBuf_held }
  case idle_empty =>
    intro hidle
    rw [State.setRx_rxActive, hact] at hidle
    cases hidle
  case rxBuf_bound =>
    intro c hc
    rcases Memory.mem_writeBytes hc with hold | ⟨-, hnew⟩
    · exact h.rxBuf_bound c hold
    · exact lt_of_lt_of_le hnew hcap
  case rxBuf_held =>
    intro k hk
    rw [State.setRx_rxLen, hlen] at hk
    simp only [State.setRx_rxBuf, State.setRxBuf_rxBuf, Memory.read_writeBytes]
    split
    · rw [List.getElem?_eq_getElem (by omega)]; rfl
    · exact h.rxBuf_held k (by omega)

end

/-! ### Operations -/

section
variable {s t : State} (h : s.Inv)
include h

theorem linkEncode_inv {a : LinkAddr} (e : linkEncode a s = .next t) : t.Inv := by
  rcases linkEncode_cases e with ⟨-, rfl⟩ | ⟨hle, rfl⟩
  · exact h.clearOut.failWith _ _
  · refine (h.setOut ?_).finish _ _
    rw [frame_length]
    exact (frameLength_le hle).trans (by decide)

theorem linkDecode_inv (e : linkDecode s = .next t) : t.Inv := by
  rcases linkDecode_cases e with ⟨f, -, rfl⟩ | ⟨n, f, -, -, rfl⟩ | ⟨n, p, hn, hp, rfl⟩
  · exact h.clearOut.failWith _ _
  · exact h.clearOut.failWith _ _
  · refine (h.setOut ?_).finish _ _
    calc p.length ≤ n := decBlocks_length_le hp
      _ ≤ cfg.linkPayloadMax := checkHeader_ok_le hn
      _ ≤ outCapacity := by decide

theorem tpSegment_inv {seg : Byte} (e : tpSegment seg s = .next t) : t.Inv := by
  rcases tpSegment_cases e with ⟨-, rfl⟩ | ⟨hseg, -, rfl⟩
  · exact h.clearOut.failWith _ _
  · refine ((h.setOut ?_).setTxSeq _).finish _ _
    have hin : s.inBuf.length ≤ 4096 := h.in_bound
    have hcap : outCapacity = 12288 := rfl
    have hcount := segmentCount_le (n := s.inBuf.length) hseg
    have hlay := segmentLayout_segments_length_le seg.toNat (segmentCount s.inBuf.length seg.toNat) true s.txSeq s.inBuf
    omega

theorem tpAccept_inv {b : Byte} {data : Bytes} (hact : s.rxActive = true) (e : tpAccept b data s = .next t) :
    t.Inv := by
  rcases tpAccept_cases e with ⟨-, rfl⟩ | ⟨u, hcap, hu, hend⟩
  · exact (h.setRx_zero _).failWith _ _
  · have hkept : u.Inv := hu ▸ (h.appendRx hact hcap).setRxExpect _
    rcases hend with ⟨-, bs, hbs, rfl⟩ | ⟨-, rfl⟩
    · refine ((hkept.setOut ?_).setRx_zero _).finish _ _
      rw [(Memory.readBytes_eq_some.1 hbs).1]
      exact hcap.trans (by decide)
    · exact hkept.finish _ _

theorem tpReceive_inv (e : tpReceive s = .next t) : t.Inv := by
  have hout : (s.setOut []).Inv := h.clearOut
  rcases tpReceive_cases e with ⟨-, rfl⟩ | ⟨b, data, -, ⟨-, hacc⟩ | ⟨-, -, rfl⟩ | ⟨-, -, -, rfl⟩ | ⟨-, hact, -, hacc⟩⟩
  · exact (hout.setStale _).finish _ _
  · exact tpAccept_inv ((hout.setStale _).setRx_zero _) rfl hacc
  · exact (hout.setStale _).failWith _ _
  · exact ((hout.setStale _).setRx_zero _).failWith _ _
  · exact tpAccept_inv (hout.setStale _) hact hacc

theorem emitFragment_inv {bad : Option Fail} {fragment : Bytes} (e : emitFragment bad fragment s = .next t) :
    t.Inv := by
  rcases emitFragment_cases e with ⟨f, -, rfl⟩ | ⟨-, -, rfl⟩ | ⟨-, hle, rfl⟩
  · exact h.clearOut.failWith _ _
  · exact h.clearOut.failWith _ _
  · exact (h.setOut (hle.trans (by decide))).finish _ _

theorem appDecode_inv (e : appDecode s = .next t) : t.Inv := by
  rcases appDecode_cases e with ⟨f, -, rfl⟩ | ⟨hd, ps, hps, rfl⟩
  · exact (h.setPts (by decide)).failWith _ _
  · refine (h.setPts ?_).finish _ _
    exact lt_of_lt_of_le (decFragment_length_lt hps) (Nat.mul_le_mul_left 8 h.in_bound)

theorem execCrcChk_inv (e : execCrcChk s = .next t) : t.Inv := by
  simp only [execCrcChk] at e
  split at e
  · exact next_inj e ▸ h.failWith _ _
  · exact next_inj e ▸ h.finish _ _

theorem execTpRst_inv (e : execTpRst s = .next t) : t.Inv :=
  next_inj e ▸ ((((h.setTxSeq _).setRx_zero _).setRxExpect _).setStale _).finish _ _

theorem appConfirm_inv {a : ConfirmArgs} (e : appConfirm a s = .next t) : t.Inv := by
  have hlen : [confirmApc a.uns a.seq, cfg.fcConfirm].length ≤ outCapacity := show 2 ≤ outCapacity by decide
  exact next_inj e ▸ (h.setOut hlen).finish _ _

/-- Every operation keeps the invariant. -/
theorem exec_operation_inv {o : Operation} (e : exec o.instr s = .next t) : t.Inv := by
  cases o with
  | crcClr => exact next_inj e ▸ (h.setCrcAcc _).finish _ _
  | crcUpd b => exact next_inj e ▸ (h.setCrcAcc _).finish _ _
  | crcRd => exact next_inj e ▸ h.finish _ _
  | crcCalc => exact next_inj e ▸ h.finish _ _
  | crcChk => exact execCrcChk_inv h e
  | linkEnc a => exact linkEncode_inv h e
  | linkDec => exact linkDecode_inv h e
  | tpSeg seg => exact tpSegment_inv h e
  | tpRx => exact tpReceive_inv h e
  | tpRst => exact execTpRst_inv h e
  | appEncRead a => exact emitFragment_inv h e
  | appEncWrite func a => exact emitFragment_inv h e
  | appEncConfirm a => exact appConfirm_inv h e
  | appEncResp a => exact emitFragment_inv h e
  | appDec => exact appDecode_inv h e
  | illegal op => exact next_inj e ▸ h.failWith _ _

/-- Every well-formed instruction keeps the invariant. -/
theorem exec_inv {i : Instr} (hw : i.WellFormed) (e : exec i s = .next t) : t.Inv := by
  rw [(runsAs_runOf i).exec_eq] at e
  exact exec_operation_inv (h.withOperand (runOf_operandFits hw)) e

end

theorem reset_inv : State.reset.Inv where
  rxLen_le := by decide
  idle_empty := fun _ => rfl
  status_listed := by decide
  ok_no_error := fun _ => ⟨rfl, rfl, rfl⟩
  rxBuf_wf := Memory.reset_wf
  rxBuf_bound := nofun
  rxBuf_held := fun _ hk => absurd hk (Nat.not_lt_zero _)
  in_bound := by decide
  out_bound := by decide
  pts_bound := by decide

/-- Settles O6: the fields of the reset state are the reset table's. -/
theorem resetState : Obligations.ResetState :=
  ⟨rfl, rfl, rfl, rfl, rfl, rfl, rfl, rfl, rfl, rfl, rfl, rfl, rfl, rfl⟩

/-- Settles O7: the reset values meet each item of the invariant. -/
theorem resetIsSound : Obligations.ResetIsSound := reset_inv

/-- Settles O8: the block is idle, the host writes IN within its capacity, or a decoded, hence well-formed, instruction
runs. -/
theorem stepKeepsSoundState : Obligations.StepKeepsSoundState := by
  intro s t h e
  rcases step_cases e with ⟨-, rfl⟩ | ⟨bs, rest, -, hbs, rfl⟩ | ⟨w, rest, i, -, hi, he⟩
  · exact h
  · exact (h.setPort rest).setIn hbs
  · exact exec_inv (h.setPort rest) (decode_wellFormed hi) he

end Sys2Proof.Machine

/-! Which operation writes which register (spec/10_state.md R25): the frames of CRC_ACC and of the transport registers. -/

namespace Sys2Proof.Machine

/-! ### Operations that write no register but STATUS and the errors -/

/-- CRC_ACC, the transport registers and RX_BUF are as before. -/
structure SameRegisters (s t : State) : Prop where
  crcAcc   : t.crcAcc = s.crcAcc
  txSeq    : t.txSeq = s.txSeq
  rxActive : t.rxActive = s.rxActive
  rxExpect : t.rxExpect = s.rxExpect
  rxLen    : t.rxLen = s.rxLen
  stale    : t.stale = s.stale
  rxBuf    : t.rxBuf = s.rxBuf

section
variable {s t : State}

theorem SameRegisters.refl (s : State) : SameRegisters s s := ⟨rfl, rfl, rfl, rfl, rfl, rfl, rfl⟩

theorem SameRegisters.setIn (h : SameRegisters s t) (bs : Bytes) : SameRegisters s (t.setIn bs) := { h with }
theorem SameRegisters.setOut (h : SameRegisters s t) (bs : Bytes) : SameRegisters s (t.setOut bs) := { h with }
theorem SameRegisters.setPts (h : SameRegisters s t) (ps : List PointRec) : SameRegisters s (t.setPts ps) := { h with }
theorem SameRegisters.finish (h : SameRegisters s t) (d : Done) (r : Results) : SameRegisters s (t.finish d r) := { h with }
theorem SameRegisters.failWith (h : SameRegisters s t) (f : Fail) (r : Results) : SameRegisters s (t.failWith f r) :=
  { h with }

theorem sameRegisters_withOperand (s : State) (x : Option Bytes) : SameRegisters s (s.withOperand x) := by
  cases x with
  | none => exact .refl s
  | some bs => exact (SameRegisters.refl s).setIn bs

theorem linkEncode_sameRegisters {a : LinkAddr} (e : linkEncode a s = .next t) : SameRegisters s t := by
  rcases linkEncode_cases e with ⟨-, rfl⟩ | ⟨-, rfl⟩
  · exact ((SameRegisters.refl s).setOut _).failWith _ _
  · exact ((SameRegisters.refl s).setOut _).finish _ _

theorem linkDecode_sameRegisters (e : linkDecode s = .next t) : SameRegisters s t := by
  rcases linkDecode_cases e with ⟨f, -, rfl⟩ | ⟨n, f, -, -, rfl⟩ | ⟨n, p, -, -, rfl⟩
  · exact ((SameRegisters.refl s).setOut _).failWith _ _
  · exact ((SameRegisters.refl s).setOut _).failWith _ _
  · exact ((SameRegisters.refl s).setOut _).finish _ _

theorem emitFragment_sameRegisters {bad : Option Fail} {fragment : Bytes}
    (e : emitFragment bad fragment s = .next t) : SameRegisters s t := by
  rcases emitFragment_cases e with ⟨f, -, rfl⟩ | ⟨-, -, rfl⟩ | ⟨-, -, rfl⟩
  · exact ((SameRegisters.refl s).setOut _).failWith _ _
  · exact ((SameRegisters.refl s).setOut _).failWith _ _
  · exact ((SameRegisters.refl s).setOut _).finish _ _

theorem appDecode_sameRegisters (e : appDecode s = .next t) : SameRegisters s t := by
  rcases appDecode_cases e with ⟨f, -, rfl⟩ | ⟨hd, ps, -, rfl⟩
  · exact ((SameRegisters.refl s).setPts _).failWith _ _
  · exact ((SameRegisters.refl s).setPts _).finish _ _

theorem execCrcChk_sameRegisters (e : execCrcChk s = .next t) : SameRegisters s t := by
  simp only [execCrcChk] at e
  split at e
  · exact next_inj e ▸ (SameRegisters.refl s).failWith _ _
  · exact next_inj e ▸ (SameRegisters.refl s).finish _ _

/-! ### What TP.SEG and TP.RX leave -/

/-- TP.SEG leaves the receiver and CRC_ACC: but for TX_SEQ the registers are as before. -/
theorem tpSegment_sameRegisters {seg : Byte} (e : tpSegment seg s = .next t) :
    SameRegisters s (t.setTxSeq s.txSeq) := by
  rcases tpSegment_cases e with ⟨-, rfl⟩ | ⟨-, -, rfl⟩ <;> exact ⟨rfl, rfl, rfl, rfl, rfl, rfl, rfl⟩

/-- The end of TP.RX's work leaves CRC_ACC and the sender's counter. -/
theorem tpAccept_keeps {b : Byte} {data : Bytes} (e : tpAccept b data s = .next t) :
    t.crcAcc = s.crcAcc ∧ t.txSeq = s.txSeq := by
  rcases tpAccept_cases e with ⟨-, rfl⟩ | ⟨u, -, rfl, ⟨-, bs, -, rfl⟩ | ⟨-, rfl⟩⟩ <;> exact ⟨rfl, rfl⟩

/-- TP.RX leaves CRC_ACC and the sender's counter. -/
theorem tpReceive_keeps (e : tpReceive s = .next t) : t.crcAcc = s.crcAcc ∧ t.txSeq = s.txSeq := by
  rcases tpReceive_cases e with ⟨-, rfl⟩ | ⟨b, data, -, ⟨-, hacc⟩ | ⟨-, -, rfl⟩ | ⟨-, -, -, rfl⟩ | ⟨-, -, -, hacc⟩⟩
  · exact ⟨rfl, rfl⟩
  · obtain ⟨hcrc, htx⟩ := tpAccept_keeps hacc
    exact ⟨hcrc, htx⟩
  · exact ⟨rfl, rfl⟩
  · exact ⟨rfl, rfl⟩
  · obtain ⟨hcrc, htx⟩ := tpAccept_keeps hacc
    exact ⟨hcrc, htx⟩

/-! ### The register columns of R25 -/

/-- Each register is as before unless the instruction is one of those R25 lets write it. -/
structure RegisterFrame (i : Instr) (s t : State) : Prop where
  crcAcc   : i ≠ .crcClr → (∀ b, i ≠ .crcUpd b) → t.crcAcc = s.crcAcc
  txSeq    : runsTpSeg i = false → i ≠ .tpRst → t.txSeq = s.txSeq
  receiver : runsTpRx i = false → i ≠ .tpRst →
    t.rxActive = s.rxActive ∧ t.rxExpect = s.rxExpect ∧ t.rxLen = s.rxLen ∧ t.stale = s.stale
  rxBuf    : runsTpRx i = false → t.rxBuf = s.rxBuf

theorem SameRegisters.frame (h : SameRegisters s t) (i : Instr) : RegisterFrame i s t where
  crcAcc _ _ := h.crcAcc
  txSeq _ _ := h.txSeq
  receiver _ _ := ⟨h.rxActive, h.rxExpect, h.rxLen, h.stale⟩
  rxBuf _ := h.rxBuf

/-- Every operation keeps to R25. -/
theorem exec_operation_frame {o : Operation} (e : exec o.instr s = .next t) : RegisterFrame o.instr s t := by
  cases o with
  | crcClr =>
    obtain rfl := next_inj e
    exact { crcAcc := fun hne => absurd rfl hne, txSeq := fun _ _ => rfl,
            receiver := fun _ _ => ⟨rfl, rfl, rfl, rfl⟩, rxBuf := fun _ => rfl }
  | crcUpd b =>
    obtain rfl := next_inj e
    exact { crcAcc := fun _ hne => absurd rfl (hne b), txSeq := fun _ _ => rfl,
            receiver := fun _ _ => ⟨rfl, rfl, rfl, rfl⟩, rxBuf := fun _ => rfl }
  | crcRd => exact next_inj e ▸ ((SameRegisters.refl s).finish _ _).frame _
  | crcCalc => exact next_inj e ▸ ((SameRegisters.refl s).finish _ _).frame _
  | crcChk => exact (execCrcChk_sameRegisters e).frame _
  | linkEnc a => exact (linkEncode_sameRegisters e).frame _
  | linkDec => exact (linkDecode_sameRegisters e).frame _
  | tpSeg seg =>
    have h := tpSegment_sameRegisters e
    exact { crcAcc := fun _ _ => h.crcAcc, txSeq := nofun,
            receiver := fun _ _ => ⟨h.rxActive, h.rxExpect, h.rxLen, h.stale⟩, rxBuf := fun _ => h.rxBuf }
  | tpRx =>
    obtain ⟨hcrc, htx⟩ := tpReceive_keeps e
    exact { crcAcc := fun _ _ => hcrc, txSeq := fun _ _ => htx, receiver := nofun, rxBuf := nofun }
  | tpRst =>
    obtain rfl := next_inj e
    exact { crcAcc := fun _ _ => rfl, txSeq := fun _ hne => absurd rfl hne,
            receiver := fun _ hne => absurd rfl hne, rxBuf := fun _ => rfl }
  | appEncRead a => exact (emitFragment_sameRegisters e).frame _
  | appEncWrite func a => exact (emitFragment_sameRegisters e).frame _
  | appEncConfirm a => exact next_inj e ▸ (((SameRegisters.refl s).setOut _).finish _ _).frame _
  | appEncResp a => exact (emitFragment_sameRegisters e).frame _
  | appDec => exact (appDecode_sameRegisters e).frame _
  | illegal op => exact next_inj e ▸ ((SameRegisters.refl s).failWith _ _).frame _

/-- Every instruction keeps to R25, with the writers of its operation. -/
theorem exec_registerFrame {i : Instr} (e : exec i s = .next t) : RegisterFrame i s t := by
  have run := runsAs_runOf i
  rw [run.exec_eq] at e
  have before := sameRegisters_withOperand s (runOf i).operand
  have frame := exec_operation_frame e
  refine ⟨fun hclr hupd => ?crcAcc, fun hseg hrst => ?txSeq, fun hrx hrst => ?receiver, fun hrx => ?rxBuf⟩
  case crcAcc =>
    exact (frame.crcAcc (fun hc => hclr (eq_of_runOf_instr hc rfl))
      (fun b hc => hupd b (eq_of_runOf_instr hc rfl))).trans before.crcAcc
  case txSeq =>
    exact (frame.txSeq (run.runsTpSeg_eq ▸ hseg) (fun hc => hrst (eq_of_runOf_instr hc rfl))).trans before.txSeq
  case receiver =>
    obtain ⟨hact, hexp, hlen, hstale⟩ :=
      frame.receiver (run.runsTpRx_eq ▸ hrx) (fun hc => hrst (eq_of_runOf_instr hc rfl))
    exact ⟨hact.trans before.rxActive, hexp.trans before.rxExpect, hlen.trans before.rxLen, hstale.trans before.stale⟩
  case rxBuf => exact (frame.rxBuf (run.runsTpRx_eq ▸ hrx)).trans before.rxBuf

end

/-- Settles O10, from the frame of R25. -/
theorem crcAccWrittenByStreamOnly : Obligations.CrcAccWrittenByStreamOnly :=
  fun _ _ _ e hclr hupd => (exec_registerFrame e).crcAcc hclr hupd

/-- Settles O11, from the frame of R25; equal memories read the same at every offset. -/
theorem transportStateFrame : Obligations.TransportStateFrame := by
  intro i s t e
  have h := exec_registerFrame e
  exact ⟨h.txSeq, h.receiver, fun hrx => ⟨h.rxBuf hrx, fun a => by rw [h.rxBuf hrx]⟩⟩

end Sys2Proof.Machine

/-! What one step does for each act at the port (spec/20_memory.md R40; spec/60_exceptions.md R215). -/

namespace Sys2Proof.Machine

section
variable {s : State} {rest : List HostAct}

/-- A word at the port that decodes runs its instruction on the state without that word. -/
theorem step_of_decode_ok {w : Issue} {i : Instr} (hp : s.port = .issue w :: rest) (hd : decode w = .ok i) :
    step s = exec i (s.setPort rest) := by
  simp only [step, fetch, hp, hd]

/-- A word at the port that does not decode is refused with the decoder's reason. -/
theorem step_of_decode_error {w : Issue} {e : DecodeError} (hp : s.port = .issue w :: rest)
    (hd : decode w = .error e) : step s = .refused (.undecodable e) := by
  simp only [step, fetch, hp, hd]

/-- A write of IN at the port replaces IN, or is refused when IN cannot hold it (R30). -/
theorem step_of_writeIn {bs : Bytes} (hp : s.port = .writeIn bs :: rest) :
    step s = if bs.length ≤ cfg.apduMax then .next ((s.setPort rest).setIn bs) else .refused .inOverCapacity := by
  by_cases hfits : bs.length ≤ cfg.apduMax
  · simp only [step, fetch, hp, if_pos hfits]
  · simp only [step, fetch, hp, if_neg hfits]

theorem step_of_port_nil (hp : s.port = []) : step s = .next s := by
  simp only [step, fetch, hp]

/-- Taking away a word put first at the port gives the state back. -/
theorem step_issueFirst {w : Issue} {i : Instr} (hd : decode w = .ok i) : step (s.issueFirst w) = exec i s :=
  step_of_decode_ok (rest := s.port) rfl hd

end

/-- A table word that has an instruction is laid out as a word that decodes to it. -/
theorem decodeTableWord_eq_some {nbits w : Nat} {i : Instr} (h : decodeTableWord nbits w = some i) :
    ∃ x, tableIssue nbits w = some x ∧ decode x = .ok i := by
  unfold decodeTableWord at h
  split at h
  · cases h
  · split at h
    · cases h; exact ⟨_, ‹_›, ‹_›⟩
    · cases h

/-- Settles O1, act by act. -/
theorem stepRunsDecodedInstruction : Obligations.StepRunsDecodedInstruction := by
  intro s rest
  refine ⟨fun w i hp hd => ⟨decode_wellFormed hd, step_of_decode_ok hp hd⟩,
    fun w e hp hd => step_of_decode_error hp hd, fun bs hp => step_of_writeIn hp, step_of_port_nil,
    fun nbits w i h => ?tableWord⟩
  case tableWord =>
    obtain ⟨x, hx, hd⟩ := decodeTableWord_eq_some h
    have placed : s.withFetchWord nbits w = s.issueFirst x := by simp only [State.withFetchWord, hx]
    rw [placed, step_issueFirst hd]

end Sys2Proof.Machine

/-! Which operation writes which space the host shares (spec/20_memory.md R30, R33, R205). -/

namespace Sys2Proof.Machine

/-! ### The classes of an instruction and of its operation -/

/-- An instruction leaves OUT when its operation does, and a command writes no operand into IN. -/
theorem runOf_buffers (i : Instr) :
    leavesOut i = leavesOut (runOf i).op.instr ∧ (isCommand i = true → (runOf i).operand = none) := by
  cases i with
  | lnk u | blk u | tph u | apc u | iin u
  | fcConfirm u | fcRead u | fcWrite u | fcSelect u | fcOperate u | fcDirectOperate u | fcResponse u | fcOther _ u
  | qualRange8 u | qualRange16 u | qualAll u | qualCountIndex16 u
  | objG1v1 u | objG1v2 u | objG10v1 u | objG10v2 u | objG20v1 u | objG20v2 u | objG20v5 u | objG20v6 u
  | objG30v1 u | objG30v2 u | objG30v3 u | objG30v4 u | objG30v5 u | objG30v6 u
  | objG40v1 u | objG40v2 u | objG40v3 u | objG40v4 u | objG41v1 u | objG41v2 u | objG41v3 u | objG41v4 u
  | objOther _ _ u => cases u <;> exact ⟨rfl, nofun⟩
  | qualOther _ _ => exact ⟨rfl, nofun⟩
  | _ => exact ⟨rfl, fun _ => rfl⟩

/-! ### What the operations write -/

/-- CRC.CHK on fewer than two bytes (R87). -/
theorem execCrcChk_short {s : State} (h : s.inBuf.length < 2) :
    execCrcChk s = .next (s.failWith ⟨.truncated, s.inBuf.length, 2, s.inBuf.length⟩ .none) := by
  simp only [execCrcChk, if_pos h]

/-- CRC.CHK compares the CRC of all but the last two bytes with those two (R87). -/
theorem execCrcChk_of_two_le {s : State} (h : 2 ≤ s.inBuf.length) :
    execCrcChk s = .next (s.finish .ok (.check
      (crc16 (s.inBuf.take (s.inBuf.length - 2)) == word16At s.inBuf (s.inBuf.length - 2))
      (crc16 (s.inBuf.take (s.inBuf.length - 2))) (word16At s.inBuf (s.inBuf.length - 2)))) := by
  simp only [execCrcChk, if_neg (Nat.not_lt.2 h)]

/-- Of the host's spaces and port at most OUT was written. -/
structure OnlyOutWritten (s t : State) : Prop where
  port  : t.port = s.port
  inBuf : t.inBuf = s.inBuf
  pts   : t.pts = s.pts

/-- Of the host's spaces and port at most PTS was written. -/
structure OnlyPtsWritten (s t : State) : Prop where
  port   : t.port = s.port
  inBuf  : t.inBuf = s.inBuf
  outBuf : t.outBuf = s.outBuf

/-- The port and IN are as before, and so is each of OUT and PTS unless the instruction is one that writes it (R30). -/
structure SpaceFrame (i : Instr) (s t : State) : Prop where
  port   : t.port = s.port
  inBuf  : t.inBuf = s.inBuf
  outBuf : leavesOut i = true → t.outBuf = s.outBuf
  pts    : runsAppDec i = false → t.pts = s.pts

section
variable {s t : State}

theorem OnlyOutWritten.frame (h : OnlyOutWritten s t) {i : Instr} (hi : leavesOut i = false) : SpaceFrame i s t where
  port := h.port
  inBuf := h.inBuf
  outBuf hl := by rw [hi] at hl; cases hl
  pts _ := h.pts

theorem OnlyPtsWritten.frame (h : OnlyPtsWritten s t) {i : Instr} (hi : runsAppDec i = true) : SpaceFrame i s t where
  port := h.port
  inBuf := h.inBuf
  outBuf _ := h.outBuf
  pts hl := by rw [hi] at hl; cases hl

theorem execCrcChk_spaceFrame (e : execCrcChk s = .next t) : SpaceFrame .crcChk s t := by
  rcases Nat.lt_or_ge s.inBuf.length 2 with hlen | hlen
  · rw [execCrcChk_short hlen] at e
    exact next_inj e ▸ ⟨rfl, rfl, fun _ => rfl, fun _ => rfl⟩
  · rw [execCrcChk_of_two_le hlen] at e
    exact next_inj e ▸ ⟨rfl, rfl, fun _ => rfl, fun _ => rfl⟩

theorem linkEncode_onlyOut {a : LinkAddr} (e : linkEncode a s = .next t) : OnlyOutWritten s t := by
  rcases linkEncode_cases e with ⟨-, rfl⟩ | ⟨-, rfl⟩ <;> exact ⟨rfl, rfl, rfl⟩

theorem linkDecode_onlyOut (e : linkDecode s = .next t) : OnlyOutWritten s t := by
  rcases linkDecode_cases e with ⟨f, -, rfl⟩ | ⟨n, f, -, -, rfl⟩ | ⟨n, p, -, -, rfl⟩ <;> exact ⟨rfl, rfl, rfl⟩

theorem tpSegment_onlyOut {seg : Byte} (e : tpSegment seg s = .next t) : OnlyOutWritten s t := by
  rcases tpSegment_cases e with ⟨-, rfl⟩ | ⟨-, -, rfl⟩ <;> exact ⟨rfl, rfl, rfl⟩

theorem tpAccept_onlyOut {b : Byte} {data : Bytes} (e : tpAccept b data s = .next t) : OnlyOutWritten s t := by
  rcases tpAccept_cases e with ⟨-, rfl⟩ | ⟨u, -, rfl, ⟨-, bs, -, rfl⟩ | ⟨-, rfl⟩⟩ <;> exact ⟨rfl, rfl, rfl⟩

theorem tpReceive_onlyOut (e : tpReceive s = .next t) : OnlyOutWritten s t := by
  rcases tpReceive_cases e with ⟨-, rfl⟩ | ⟨b, data, -, ⟨-, hacc⟩ | ⟨-, -, rfl⟩ | ⟨-, -, -, rfl⟩ | ⟨-, -, -, hacc⟩⟩
  · exact ⟨rfl, rfl, rfl⟩
  · exact { tpAccept_onlyOut hacc with }
  · exact ⟨rfl, rfl, rfl⟩
  · exact ⟨rfl, rfl, rfl⟩
  · exact { tpAccept_onlyOut hacc with }

theorem emitFragment_onlyOut {bad : Option Fail} {fragment : Bytes} (e : emitFragment bad fragment s = .next t) :
    OnlyOutWritten s t := by
  rcases emitFragment_cases e with ⟨f, -, rfl⟩ | ⟨-, -, rfl⟩ | ⟨-, -, rfl⟩ <;> exact ⟨rfl, rfl, rfl⟩

theorem appConfirm_onlyOut {a : ConfirmArgs} (e : appConfirm a s = .next t) : OnlyOutWritten s t :=
  next_inj e ▸ ⟨rfl, rfl, rfl⟩

theorem appDecode_onlyPts (e : appDecode s = .next t) : OnlyPtsWritten s t := by
  rcases appDecode_cases e with ⟨f, -, rfl⟩ | ⟨hd, ps, -, rfl⟩ <;> exact ⟨rfl, rfl, rfl⟩

/-- Every operation keeps to the writers of R30. -/
theorem exec_operation_spaceFrame {o : Operation} (e : exec o.instr s = .next t) : SpaceFrame o.instr s t := by
  cases o with
  | crcClr | crcUpd _ | crcRd | crcCalc | tpRst | illegal _ =>
    exact next_inj e ▸ ⟨rfl, rfl, fun _ => rfl, fun _ => rfl⟩
  | crcChk => exact execCrcChk_spaceFrame e
  | linkEnc a => exact (linkEncode_onlyOut e).frame rfl
  | linkDec => exact (linkDecode_onlyOut e).frame rfl
  | tpSeg seg => exact (tpSegment_onlyOut e).frame rfl
  | tpRx => exact (tpReceive_onlyOut e).frame rfl
  | appEncRead a => exact (emitFragment_onlyOut e).frame rfl
  | appEncWrite func a => exact (emitFragment_onlyOut e).frame rfl
  | appEncConfirm a => exact (appConfirm_onlyOut e).frame rfl
  | appEncResp a => exact (emitFragment_onlyOut e).frame rfl
  | appDec => exact (appDecode_onlyPts e).frame rfl

/-- Writing an operand into IN leaves the port, OUT and PTS. -/
theorem withOperand_keeps (s : State) (x : Option Bytes) :
    (s.withOperand x).port = s.port ∧ (s.withOperand x).outBuf = s.outBuf ∧ (s.withOperand x).pts = s.pts := by
  cases x <;> exact ⟨rfl, rfl, rfl⟩

end

/-- Settles O12: what the operation leaves of the buffers; and a command writes no operand into IN. -/
theorem bufferFrame : Obligations.BufferFrame := by
  intro i s t e
  have run := runsAs_runOf i
  obtain ⟨hleaves, hoperand⟩ := runOf_buffers i
  obtain ⟨hport, hout, hpts⟩ := withOperand_keeps s (runOf i).operand
  rw [run.exec_eq] at e
  have frame := exec_operation_spaceFrame e
  refine ⟨frame.port.trans hport, fun hcmd => ?inBuf, fun hl => (frame.outBuf (hleaves ▸ hl)).trans hout,
    fun ha => (frame.pts (run.runsAppDec_eq ▸ ha)).trans hpts⟩
  case inBuf => rw [frame.inBuf, hoperand hcmd]; rfl

end Sys2Proof.Machine

/-! The operations that read no register: what the host sees of them is the same in any two states with the same IN
(spec/43_application.md R135; spec/20_memory.md R41). -/

namespace Sys2Proof.Machine

/-! ### How LINK.DEC, the encoders and APP.DEC end -/

section
variable {s : State}

theorem linkDecode_header_error {f : Fail} (h : checkHeader s.inBuf = .error f) :
    linkDecode s = .next ((s.setOut []).failWith f (.dropped (BitVec.ofNat 16 (consumedOn f.err 0)))) := by
  simp only [linkDecode, h]

theorem linkDecode_block_error {n : Nat} {f : Fail} (h : checkHeader s.inBuf = .ok n)
    (hb : decBlocks s.inBuf (blockCount n) n cfg.headerLen = .error f) :
    linkDecode s =
      .next ((s.setOut []).failWith f (.dropped (BitVec.ofNat 16 (consumedOn f.err (frameLength n))))) := by
  simp only [linkDecode, h, hb]

theorem linkDecode_ok {n : Nat} {p : Bytes} (h : checkHeader s.inBuf = .ok n)
    (hb : decBlocks s.inBuf (blockCount n) n cfg.headerLen = .ok p) :
    linkDecode s = .next ((s.setOut p).finish .ok (.link (byteAt s.inBuf 3) (word16At s.inBuf 4) (word16At s.inBuf 6)
      (BitVec.ofNat 16 (frameLength n)))) := by
  simp only [linkDecode, h, hb]

theorem emitFragment_refused (f : Fail) (fragment : Bytes) (s : State) :
    emitFragment (some f) fragment s = .next ((s.setOut []).failWith f .none) := rfl

theorem emitFragment_long {fragment : Bytes} (h : cfg.apduMax < fragment.length) :
    emitFragment none fragment s =
      .next ((s.setOut []).failWith ⟨.encTooLong, 0, cfg.apduMax, cut16 fragment.length⟩ .none) := by
  simp only [emitFragment, if_pos h]

theorem emitFragment_ok {fragment : Bytes} (h : fragment.length ≤ cfg.apduMax) :
    emitFragment none fragment s = .next ((s.setOut fragment).finish .ok .none) := by
  simp only [emitFragment, if_neg (Nat.not_lt.2 h)]

theorem appDecode_error {f : Fail} (h : decFragment s.inBuf = .error f) :
    appDecode s = .next ((s.setPts []).failWith f .none) := by
  simp only [appDecode, h]

theorem appDecode_ok {hd : AppHeader} {ps : List PointRec} (h : decFragment s.inBuf = .ok (hd, ps)) :
    appDecode s = .next ((s.setPts ps).finish .ok (.fragment hd)) := by
  simp only [appDecode, h]

end

/-! ### What the host sees of two runs -/

/-- STATUS, the error registers and the named results are the same. -/
structure SameReport (t₁ t₂ : State) : Prop where
  status      : t₁.status = t₂.status
  errOffset   : t₁.errOffset = t₂.errOffset
  errExpected : t₁.errExpected = t₂.errExpected
  errActual   : t₁.errActual = t₂.errActual
  results     : t₁.results = t₂.results

/-- The report is the same, and so are the buffers the instruction writes. -/
structure SameSeen (i : Instr) (t₁ t₂ : State) : Prop where
  report : SameReport t₁ t₂
  outBuf : leavesOut i = false → t₁.outBuf = t₂.outBuf
  pts    : runsAppDec i = true → t₁.pts = t₂.pts

/-- Both outcomes of the instruction are next states, and they show the host the same. -/
def EndAlike (i : Instr) (r₁ r₂ : Result) : Prop := ∃ t₁ t₂, r₁ = .next t₁ ∧ r₂ = .next t₂ ∧ SameSeen i t₁ t₂

theorem EndAlike.sameSeen {i : Instr} {r₁ r₂ : Result} (h : EndAlike i r₁ r₂) {t₁ t₂ : State} (e₁ : r₁ = .next t₁)
    (e₂ : r₂ = .next t₂) : SameSeen i t₁ t₂ := by
  obtain ⟨u₁, u₂, hu₁, hu₂, seen⟩ := h
  obtain rfl := next_inj (hu₁.symm.trans e₁)
  obtain rfl := next_inj (hu₂.symm.trans e₂)
  exact seen

theorem sameReport_finish (s₁ s₂ : State) (d : Done) (r : Results) : SameReport (s₁.finish d r) (s₂.finish d r) :=
  ⟨rfl, rfl, rfl, rfl, rfl⟩

theorem sameReport_failWith (s₁ s₂ : State) (f : Fail) (r : Results) :
    SameReport (s₁.failWith f r) (s₂.failWith f r) :=
  ⟨rfl, rfl, rfl, rfl, rfl⟩

section
variable {i : Instr} {t₁ t₂ : State} (report : SameReport t₁ t₂)
include report

/-- An instruction that writes neither OUT nor PTS shows its report alone. -/
theorem SameReport.endAlike (hl : leavesOut i = true) (ha : runsAppDec i = false) :
    EndAlike i (.next t₁) (.next t₂) :=
  ⟨t₁, t₂, rfl, rfl, report, fun h => absurd (hl.symm.trans h) nofun, fun h => absurd (ha.symm.trans h) nofun⟩

/-- Without APP.DEC the host sees the report and OUT. -/
theorem SameReport.endAlike_out (ha : runsAppDec i = false) (hout : t₁.outBuf = t₂.outBuf) :
    EndAlike i (.next t₁) (.next t₂) :=
  ⟨t₁, t₂, rfl, rfl, report, fun _ => hout, fun h => absurd (ha.symm.trans h) nofun⟩

/-- An instruction that leaves OUT shows the report and PTS. -/
theorem SameReport.endAlike_pts (hl : leavesOut i = true) (hpts : t₁.pts = t₂.pts) :
    EndAlike i (.next t₁) (.next t₂) :=
  ⟨t₁, t₂, rfl, rfl, report, fun h => absurd (hl.symm.trans h) nofun, fun _ => hpts⟩

end

/-! ### Each stateless operation -/

theorem emitFragment_endAlike {i : Instr} (ha : runsAppDec i = false) (bad : Option Fail) (fragment : Bytes)
    (s₁ s₂ : State) : EndAlike i (emitFragment bad fragment s₁) (emitFragment bad fragment s₂) := by
  cases bad with
  | some f => exact (sameReport_failWith _ _ _ _).endAlike_out ha rfl
  | none =>
    rcases Nat.lt_or_ge cfg.apduMax fragment.length with hlen | hlen
    · rw [emitFragment_long hlen, emitFragment_long hlen]
      exact (sameReport_failWith _ _ _ _).endAlike_out ha rfl
    · rw [emitFragment_ok hlen, emitFragment_ok hlen]
      exact (sameReport_finish _ _ _ _).endAlike_out ha rfl

section
variable {s₁ s₂ : State} (hin : s₁.inBuf = s₂.inBuf)
include hin

theorem execCrcChk_endAlike : EndAlike .crcChk (execCrcChk s₁) (execCrcChk s₂) := by
  rcases Nat.lt_or_ge s₁.inBuf.length 2 with hlen | hlen
  · rw [execCrcChk_short hlen, execCrcChk_short (hin ▸ hlen), hin]
    exact (sameReport_failWith _ _ _ _).endAlike rfl rfl
  · rw [execCrcChk_of_two_le hlen, execCrcChk_of_two_le (hin ▸ hlen), hin]
    exact (sameReport_finish _ _ _ _).endAlike rfl rfl

theorem linkEncode_endAlike (a : LinkAddr) : EndAlike (.linkEnc a) (linkEncode a s₁) (linkEncode a s₂) := by
  rcases Nat.lt_or_ge cfg.linkPayloadMax s₁.inBuf.length with hlen | hlen
  · rw [linkEncode_long hlen, linkEncode_long (hin ▸ hlen), hin]
    exact (sameReport_failWith _ _ _ _).endAlike_out rfl rfl
  · rw [linkEncode_ok hlen, linkEncode_ok (hin ▸ hlen), hin]
    exact (sameReport_finish _ _ _ _).endAlike_out rfl rfl

theorem linkDecode_endAlike : EndAlike .linkDec (linkDecode s₁) (linkDecode s₂) := by
  cases hhdr : checkHeader s₁.inBuf with
  | error f =>
    rw [linkDecode_header_error hhdr, linkDecode_header_error (hin ▸ hhdr)]
    exact (sameReport_failWith _ _ _ _).endAlike_out rfl rfl
  | ok n =>
    cases hblk : decBlocks s₁.inBuf (blockCount n) n cfg.headerLen with
    | error f =>
      rw [linkDecode_block_error hhdr hblk, linkDecode_block_error (hin ▸ hhdr) (hin ▸ hblk)]
      exact (sameReport_failWith _ _ _ _).endAlike_out rfl rfl
    | ok p =>
      rw [linkDecode_ok hhdr hblk, linkDecode_ok (hin ▸ hhdr) (hin ▸ hblk), hin]
      exact (sameReport_finish _ _ _ _).endAlike_out rfl rfl

theorem appDecode_endAlike : EndAlike .appDec (appDecode s₁) (appDecode s₂) := by
  cases hdec : decFragment s₁.inBuf with
  | error f =>
    rw [appDecode_error hdec, appDecode_error (hin ▸ hdec)]
    exact (sameReport_failWith _ _ _ _).endAlike_pts rfl rfl
  | ok x =>
    rw [appDecode_ok hdec, appDecode_ok (hin ▸ hdec)]
    exact (sameReport_finish _ _ _ _).endAlike_pts rfl rfl

/-- But for CRC.RD, TP.SEG and TP.RX, an operation ends, and shows the host what IN alone decides. -/
theorem exec_operation_endAlike {o : Operation} (hrd : o.instr ≠ .crcRd) (hseg : runsTpSeg o.instr = false)
    (hrx : runsTpRx o.instr = false) : EndAlike o.instr (exec o.instr s₁) (exec o.instr s₂) := by
  cases o with
  | crcRd => exact absurd rfl hrd
  | tpSeg seg => cases hseg
  | tpRx => cases hrx
  | crcClr | crcUpd _ | tpRst => exact (sameReport_finish _ _ _ _).endAlike rfl rfl
  | crcCalc =>
    refine SameReport.endAlike ?_ rfl rfl
    rw [hin]
    exact sameReport_finish _ _ _ _
  | crcChk => exact execCrcChk_endAlike hin
  | linkEnc a => exact linkEncode_endAlike hin a
  | linkDec => exact linkDecode_endAlike hin
  | appEncRead _ | appEncWrite _ _ | appEncResp _ => exact emitFragment_endAlike rfl _ _ s₁ s₂
  | appEncConfirm a => exact (sameReport_finish _ _ _ _).endAlike_out rfl rfl
  | appDec => exact appDecode_endAlike hin
  | illegal op => exact (sameReport_failWith _ _ _ _).endAlike rfl rfl

theorem withOperand_inBuf_eq (x : Option Bytes) : (s₁.withOperand x).inBuf = (s₂.withOperand x).inBuf := by
  cases x with
  | none => exact hin
  | some bs => rfl

end

/-- Settles O16: the instruction's operation runs on two states that agree in IN, whether or not an operand was written
there. -/
theorem statelessOperationsSeeOnlyIn : Obligations.StatelessOperationsSeeOnlyIn := by
  intro i s₁ s₂ t₁ t₂ hrd hseg hrx hin e₁ e₂
  have run := runsAs_runOf i
  obtain ⟨hleaves, -⟩ := runOf_buffers i
  rw [run.exec_eq] at e₁ e₂
  have alike := exec_operation_endAlike (withOperand_inBuf_eq hin (runOf i).operand)
    (fun hc => hrd (eq_of_runOf_instr hc rfl)) (run.runsTpSeg_eq ▸ hseg) (run.runsTpRx_eq ▸ hrx)
  obtain ⟨⟨hstatus, hoff, hexp, hact, hres⟩, hout, hpts⟩ := alike.sameSeen e₁ e₂
  exact ⟨hstatus, hoff, hexp, hact, fun _ => hres, fun hl => hout (hleaves ▸ hl), fun ha => hpts (run.runsAppDec_eq ▸ ha)⟩

end Sys2Proof.Machine

/-! The words of the opcode table: the decoder gives every instruction back from its word, every command code its
operation, and every object row its descriptor (spec/30_encoding.md R46 to R60). -/

namespace Sys2Proof.Machine

/-! ### The checks -/

/-- A list of forms passes the check exactly when each form is one R137 allows. -/
theorem formsProblem_eq_none {fs : List Form} : formsProblem fs = none ↔ ∀ f ∈ fs, f.fits = true := by
  unfold formsProblem
  split <;> simp_all

theorem otherProblem_eq_none {assigned : Bool} : otherProblem assigned = none ↔ assigned = false := by
  cases assigned <;> simp [otherProblem]

/-! ### Codes without a row of their own -/

/-- A code that selects no operation is the illegal command (R48). -/
theorem decodeOp_illegal {op : Byte} (h : opCodes.contains op = false) (a : Args) : decodeOp op a = .illegal op := by
  simp only [opCodes, List.contains_cons, Bool.or_eq_false_iff, beq_eq_false_iff_ne] at h
  simp only [decodeOp, h, if_false]

/-- A function code without a row of its own is of the row for the others (R197). -/
theorem decodeFc_other {fc : Byte} (h : functionCodes.contains fc = false) (a : Args) :
    decodeFc fc a = .fcOther fc (fcUse (writeOperands a) a) := by
  simp only [functionCodes, cfg, List.contains_cons, Bool.or_eq_false_iff, beq_eq_false_iff_ne] at h
  simp only [decodeFc, h, if_false]

/-- A qualifier without a row of its own is of the row for the others (R148). -/
theorem decodeQual_other {q : Byte} (h : qualifierCodes.contains q = false) (a : Args) :
    decodeQual q a = .qualOther q (qualParse a) := by
  simp only [qualifierCodes, cfg, List.contains_cons, Bool.or_eq_false_iff, beq_eq_false_iff_ne] at h
  simp only [decodeQual, h, if_false]

/-! ### The fields of a link header item (R49) -/

theorem word16At_lnkBytes_dest (p : LnkParse) : word16At (lnkBytes p) 4 = p.dest := le16_join p.dest

theorem word16At_lnkBytes_src (p : LnkParse) : word16At (lnkBytes p) 6 = p.src := le16_join p.src

theorem word16At_lnkBytes_hcrc (p : LnkParse) : word16At (lnkBytes p) 8 = p.hcrc := le16_join p.hcrc

/-- An item to parse gives every field back. -/
theorem decodeLnk_parse (p : LnkParse) (a : Args) (ha : a.dir = .parse) :
    decodeLnk (lnkBytes p) a = .lnk (.parse { p with tail := a.tail }) := by
  simp only [decodeLnk, ha, word16At_lnkBytes_dest, word16At_lnkBytes_src, word16At_lnkBytes_hcrc]
  rfl

/-- An item to build gives back the operands of LINK.ENC. -/
theorem decodeLnk_build (p : LnkParse) (a : Args) (ha : a.dir = .build) :
    decodeLnk (lnkBytes p) a = .lnk (.build ⟨p.control, p.dest, p.src⟩) := by
  simp only [decodeLnk, ha, word16At_lnkBytes_dest, word16At_lnkBytes_src]
  rfl

/-! ### The parts of a data block item (R50) -/

section
variable (p : Bytes) (c : U16) (a : Args)

theorem word16At_payload_crc : word16At (p ++ le16 c) p.length = c := by
  have behind := word16At_append p (le16 c) 0
  have crc := word16At_le16 c []
  rw [List.append_nil] at crc
  exact behind.trans crc

theorem decodeFormat_blk : decodeFormat ⟨.blk, p ++ le16 c, a⟩ = .ok (decodeBlk (p ++ le16 c) a) :=
  if_pos (by simp)

theorem decodeBlk_build (ha : a.dir = .build) :
    decodeBlk (p ++ le16 c) a = .blk (.build ⟨⟨a.control, a.dest, a.src⟩, p⟩) := by
  simp [decodeBlk, ha]

theorem decodeBlk_parse (ha : a.dir = .parse) :
    decodeBlk (p ++ le16 c) a = .blk (.parse ⟨⟨a.control, a.dest, a.src⟩, p, c⟩) := by
  simp [decodeBlk, ha, word16At_payload_crc]

end

/-! ### The bytes of the transport and application headers (R52, R53) -/

section
variable {a : Args}

theorem decodeTph_parse (p : TphParse) (ha : a.dir = .parse) :
    decodeTph (tphByte p.fin p.fir p.seq) a = .tph (.parse { p with data := a.tail }) := by
  simp only [decodeTph, ha, tphFin_tphByte, tphFir_tphByte, tphSeq_tphByte]

theorem decodeApc_build (c : ApcBits) (ha : a.dir = .build) :
    decodeApc (apcByte c) a = .apc (.build ⟨c, a.iin1, a.iin2, a.dataBlocks⟩) := by
  simp only [decodeApc, ha, respOperands, apcBits_apcByte]

theorem decodeApc_parse (c : ApcBits) (ha : a.dir = .parse) : decodeApc (apcByte c) a = .apc (.parse ⟨c, a.tail⟩) := by
  simp only [decodeApc, ha, apcBits_apcByte]

theorem decodeIin_build {iin1 iin2 : Byte} (c : ApcBits) (ha : a.dir = .build) (hc : a.apc = apcByte c) :
    decodeIin iin1 iin2 a = .iin (.build ⟨c, iin1, iin2, a.dataBlocks⟩) := by
  simp only [decodeIin, ha, hc, respOperands, apcBits_apcByte]

end

/-! ### Every word -/

/-- A part of a catch-all row's check. -/
theorem otherProblem_or {assigned : Bool} {rest : Option DecodeError} (h : (otherProblem assigned).or rest = none) :
    assigned = false :=
  otherProblem_eq_none.1 (Option.or_eq_none_iff.1 h).1

/-- The format and the code bytes of a word give its instruction back: by computation where the code bytes are the row's
own, by the lemmas above where they hold an operand or the code of a catch-all row. -/
theorem decodeFormat_encode {i : Instr} (h : i.WellFormed) : decodeFormat (encode i) = .ok i := by
  cases i with
  | illegal op => exact congrArg Except.ok (decodeOp_illegal (otherProblem_eq_none.1 h) _)
  | lnk u =>
    cases u with
    | build a => exact congrArg Except.ok (decodeLnk_build _ _ rfl)
    | parse p => exact congrArg Except.ok (decodeLnk_parse p _ rfl)
  | blk u =>
    cases u with
    | build b => exact (decodeFormat_blk _ _ _).trans (congrArg Except.ok (decodeBlk_build _ _ _ rfl))
    | parse p => exact (decodeFormat_blk _ _ _).trans (congrArg Except.ok (decodeBlk_parse _ _ _ rfl))
  | tph u =>
    cases u with
    | build seg => rfl
    | parse p => exact congrArg Except.ok (decodeTph_parse p rfl)
  | apc u =>
    cases u with
    | build a => exact congrArg Except.ok (decodeApc_build a.ctrl rfl)
    | parse p => exact congrArg Except.ok (decodeApc_parse p.ctrl rfl)
  | iin u =>
    cases u with
    | build a => exact congrArg Except.ok (decodeIin_build a.ctrl rfl rfl)
    | parse p => rfl
  | fcOther c u =>
    cases u with
    | build a => exact congrArg Except.ok (decodeFc_other (otherProblem_or h) _)
    | parse p => exact congrArg Except.ok (decodeFc_other (otherProblem_or h) _)
  | qualRange8 u =>
    cases u with
    | build b =>
      have low_byte (x : Byte) : (x.setWidth 16).setWidth 8 = x := by
        rw [BitVec.setWidth_setWidth_of_le _ (by decide), BitVec.setWidth_eq]
      exact congrArg₂ (fun start stop => Except.ok (Instr.qualRange8 (.build ⟨b.block, start, stop⟩)))
        (low_byte b.start) (low_byte b.stop)
    | parse p => rfl
  | qualOther q p => exact congrArg Except.ok (decodeQual_other (otherProblem_or h) _)
  | objOther g v u =>
    have hnone : lookupObj g v = none := Option.not_isSome_iff_eq_none.1 (Bool.eq_false_iff.1 (otherProblem_or h))
    cases u with
    | build b => exact congrArg Except.ok (decodeObj_other hnone _)
    | parse p => exact congrArg Except.ok (decodeObj_other hnone _)
  | fcConfirm u | fcRead u | fcWrite u | fcSelect u | fcOperate u | fcDirectOperate u | fcResponse u
  | qualRange16 u | qualAll u | qualCountIndex16 u
  | objG1v1 u | objG1v2 u | objG10v1 u | objG10v2 u | objG20v1 u | objG20v2 u | objG20v5 u | objG20v6 u
  | objG30v1 u | objG30v2 u | objG30v3 u | objG30v4 u | objG30v5 u | objG30v6 u
  | objG40v1 u | objG40v2 u | objG40v3 u | objG40v4 u | objG41v1 u | objG41v2 u | objG41v3 u | objG41v4 u =>
    cases u <;> rfl
  | _ => rfl

/-- Settles O2: the word gives the instruction back, and it passes the check that the instruction passes. -/
theorem decodeEncodeRoundTrip : Obligations.DecodeEncodeRoundTrip :=
  fun _ h => decode_of_decodeFormat (decodeFormat_encode h) h

/-! ### The command codes -/

/-- Settles O3: the code selects the operation, and of the three encoders of lists the index lists fit by hypothesis. -/
theorem commandCodesDecode : Obligations.CommandCodesDecode := by
  intro a
  have fits {α : Type} {form : α → Form} {bs : List α} (h : ∀ b ∈ bs, (form b).fits = true) :
      formsProblem (bs.map form) = none :=
    formsProblem_eq_none.2 (List.forall_mem_map.2 h)
  exact ⟨rfl, rfl, rfl, rfl, rfl, rfl, rfl, rfl, rfl, rfl,
    fun h => decode_of_decodeFormat rfl (fits h), fun h => decode_of_decodeFormat rfl (fits h), rfl,
    fun h => decode_of_decodeFormat rfl (fits h), rfl⟩

/-- Settles O4: none of the four ranges holds a code of R47. -/
theorem illegalCommand : Obligations.IllegalCommand := by
  intro op a s hop
  have hother : opCodes.contains op = false := by
    revert op; decide
  have wellFormed : (Instr.illegal op).WellFormed := by
    show otherProblem (opCodes.contains op) = none
    rw [hother]; rfl
  exact ⟨decode_of_decodeFormat (congrArg Except.ok (decodeOp_illegal hother a)) wellFormed, rfl⟩

/-- Settles O5: the decoder runs on each of the eight words. -/
theorem sampleWordsDecode : Obligations.SampleWordsDecode :=
  ⟨rfl, rfl, rfl, rfl, rfl, rfl, rfl, rfl⟩

/-! ### The object table -/

/-- A pair has no descriptor exactly when no row of the table is the pair's (R60). -/
theorem lookupObj_eq_none {g v : Byte} :
    lookupObj g v = none ↔ ∀ r ∈ cfg.objTable, ¬(g = r.group ∧ v = r.variation) := by
  simp only [lookupObj, Option.map_eq_none_iff, List.find?_eq_none, Bool.and_eq_true, beq_iff_eq,
    eq_comm (a := g), eq_comm (a := v)]

/-- No two rows share group and variation: each is found by its own. -/
theorem lookupObj_of_mem : ∀ r ∈ cfg.objTable, lookupObj r.group r.variation = some r.desc := by decide

theorem bigEndian_of_mem : ∀ r ∈ cfg.objTable, r.desc.bigEndian = false := by decide

/-- A row of the table as R60 prints it: group, variation, the columns of the descriptor, and the point's size. -/
def tableColumns (r : ObjRow) : Byte × Byte × PType × Kind × Nat × Bool × FlagPos × FlagRole × Nat :=
  (r.group, r.variation, r.desc.ptype, r.desc.kind, r.desc.vbytes, r.desc.signed, r.desc.flagPos, r.desc.flagRole,
    pointSize r.desc)

/-- Settles O49: the rows of the statement are the columns of `OBJ_TABLE`. -/
theorem objectTable : Obligations.ObjectTable := by
  unfold Obligations.ObjectTable
  intro rows
  have hrows : rows = cfg.objTable.map tableColumns := rfl
  rw [hrows]
  refine ⟨List.forall_mem_map.2 fun r hr => ⟨r.desc, lookupObj_of_mem r hr, rfl, bigEndian_of_mem r hr⟩, ?_⟩
  intro g v h
  rw [List.forall_mem_map] at h
  exact lookupObj_eq_none.2 h

end Sys2Proof.Machine

/-! LINK.DEC on what LINK.ENC writes (spec/41_link.md R98 to R103, R106), and the two Link items of the opcode table. -/

namespace Sys2Proof.Machine

/-! ### The ten bytes of a header (R98, R99) -/

/-- The header of a frame of `n` payload bytes, with its CRC. -/
def frameHeader (a : LinkAddr) (n : Nat) : Bytes := header8 a n ++ le16 (headerCrc (header8 a n))

theorem frame_eq (a : LinkAddr) (p : Bytes) :
    frame a p = frameHeader a p.length ++ encBlocks (blockCount p.length) p := rfl

@[simp] theorem frameHeader_length (a : LinkAddr) (n : Nat) : (frameHeader a n).length = 10 := rfl

/-- Under a right header the announced extent is all that is checked (R102, R103). -/
theorem checkHeader_frameHeader (a : LinkAddr) {n : Nat} {t : Bytes} (hn : n ≤ cfg.linkPayloadMax)
    (ht : n + 2 * blockCount n ≤ t.length) : checkHeader (frameHeader a n ++ t) = .ok n := by
  have hmax : n ≤ 250 := hn
  have start0 : byteAt (frameHeader a n ++ t) 0 = cfg.start0 := rfl
  have start1 : byteAt (frameHeader a n ++ t) 1 = cfg.start1 := rfl
  have hlen : (byteAt (frameHeader a n ++ t) 2).toNat = 5 + n := by
    show (BitVec.ofNat 8 (5 + n)).toNat = 5 + n
    rw [BitVec.toNat_ofNat]; omega
  have first8 : (frameHeader a n ++ t).take 8 = header8 a n := rfl
  have hcrc : word16At (frameHeader a n ++ t) 8 = headerCrc (header8 a n) := le16_join _
  have extent : (frameHeader a n ++ t).length = 10 + t.length := by simp
  have lenBase : cfg.lenBase = 5 := rfl
  have headerLen : cfg.headerLen = 10 := rfl
  have payload : 5 + n - 5 = n := by omega
  simp only [checkHeader, start0, start1, first8, hcrc, hlen, extent, lenBase, payload, frameLength, headerLen]
  rw [if_neg (by simp), if_neg (by simp), if_neg (by omega), if_neg (by simp), if_neg (by omega), if_neg (by omega)]

/-- Under a right header LINK.DEC ends as the data blocks decide: the payload and the header's fields. -/
theorem linkDecode_frameHeader {a : LinkAddr} {n : Nat} {t p : Bytes} {s : State} (hin : s.inBuf = frameHeader a n ++ t)
    (hn : n ≤ cfg.linkPayloadMax) (ht : n + 2 * blockCount n ≤ t.length)
    (hp : decBlocks (frameHeader a n ++ t) (blockCount n) n cfg.headerLen = .ok p) :
    linkDecode s =
      .next ((s.setOut p).finish .ok (.link a.control a.dest a.src (BitVec.ofNat 16 (frameLength n)))) := by
  have dest : word16At (frameHeader a n ++ t) 4 = a.dest := le16_join _
  have src : word16At (frameHeader a n ++ t) 6 = a.src := le16_join _
  rw [← dest, ← src, ← hin]
  rw [← hin] at hp
  rw [linkDecode_ok (hin ▸ checkHeader_frameHeader a hn ht) hp, hin]
  rfl

/-! ### Data blocks (R100, R102) -/

section
variable {pre b rest : Bytes} {c : U16} {k n : Nat}

theorem slice_middle (pre b rest : Bytes) : slice (pre ++ (b ++ rest)) pre.length b.length = b := by
  simp [slice]

/-- The CRC behind a block stands where the block ends. -/
theorem word16At_middle (pre b rest : Bytes) (c : U16) :
    word16At (pre ++ (b ++ (le16 c ++ rest))) (pre.length + b.length) = c := by
  rw [← List.append_assoc, ← List.length_append]
  exact (word16At_append (pre ++ b) _ 0).trans (word16At_le16 c rest)

/-- The block at the cursor is refused when the two bytes after it are not its CRC. -/
theorem decBlocks_badCrc (hb : b.length = min cfg.blockMax n) (hc : crc16 b ≠ c) :
    decBlocks (pre ++ (b ++ (le16 c ++ rest))) (k + 1) n pre.length =
      .error ⟨.badBlockCrc, pre.length + b.length, (crc16 b).toNat, c.toNat⟩ := by
  simp only [decBlocks, ← hb, slice_middle, word16At_middle, if_pos hc]

/-- A block with its CRC stands before what the later blocks hold. -/
theorem decBlocks_goodCrc {later : Bytes} (hb : b.length = min cfg.blockMax n)
    (hlater : decBlocks (pre ++ (b ++ (le16 (crc16 b) ++ rest))) k (n - b.length) (pre.length + b.length + 2) =
      .ok later) :
    decBlocks (pre ++ (b ++ (le16 (crc16 b) ++ rest))) (k + 1) n pre.length = .ok (b ++ later) := by
  simp only [decBlocks, ← hb, slice_middle, word16At_middle, ne_eq, not_true_eq_false, if_false, hlater]

end

/-- The blocks written for a payload give it back, from wherever they stand. -/
theorem decBlocks_encBlocks {k : Nat} {pre p t : Bytes} (hk : p.length ≤ cfg.blockMax * k) :
    decBlocks (pre ++ (encBlocks k p ++ t)) k p.length pre.length = .ok p := by
  induction k generalizing pre p with
  | zero =>
    obtain rfl : p = [] := by simpa using hk
    rfl
  | succ k ih =>
    have hrest : (p.drop cfg.blockMax).length ≤ cfg.blockMax * k := by
      rw [List.length_drop]; rw [Nat.mul_succ] at hk; omega
    have left : p.length - (p.take cfg.blockMax).length = (p.drop cfg.blockMax).length := by
      rw [List.length_take, List.length_drop]; omega
    have later := ih (pre := pre ++ (p.take cfg.blockMax ++ le16 (crc16 (p.take cfg.blockMax)))) hrest
    simp only [List.length_append, le16_length, List.append_assoc, ← Nat.add_assoc, ← left] at later
    simp only [encBlocks, List.append_assoc]
    rw [decBlocks_goodCrc List.length_take later, List.take_append_drop]

/-- LINK.DEC on a frame, whatever follows it (R106). -/
theorem linkDecode_frame {a : LinkAddr} {p t : Bytes} {s : State} (hin : s.inBuf = frame a p ++ t)
    (hp : p.length ≤ cfg.linkPayloadMax) :
    linkDecode s = .next ((s.setOut p).finish .ok
      (.link a.control a.dest a.src (BitVec.ofNat 16 (frameLength p.length)))) := by
  have blocks := le_blockMax_mul_blockCount p.length
  rw [frame_eq, List.append_assoc] at hin
  refine linkDecode_frameHeader hin hp ?extent (decBlocks_encBlocks blocks)
  case extent => rw [List.length_append, encBlocks_length _ _ blocks]; omega

/-! ### LNK and BLK, built and parsed -/

/-- Settles O50: the item heads LINK.ENC's frame, and a right header with length 5 is a whole frame to LINK.DEC. -/
theorem linkHeaderItem : Obligations.LinkHeaderItem := by
  refine ⟨fun _ _ => rfl, fun a s hlen => ⟨frame a s.inBuf, ⟨_, linkEncode_ok hlen⟩, rfl⟩,
    fun a s hlen => linkEncode_long hlen, fun p s => ⟨rfl, linkDecode_next _, fun h0 h1 hlen hcrc => ?whole⟩⟩
  case whole =>
    have header : lnkBytes p = frameHeader ⟨p.control, p.dest, p.src⟩ 0 := by
      rw [lnkBytes, h0, h1, hlen, hcrc]; rfl
    have hin : (s.setIn (lnkBytes p ++ p.tail)).inBuf = frameHeader ⟨p.control, p.dest, p.src⟩ 0 ++ p.tail :=
      congrArg (· ++ p.tail) header
    exact linkDecode_frameHeader hin (Nat.zero_le _) (Nat.zero_le _) rfl

/-- One block is enough for 1 to 16 bytes (R50). -/
theorem blockCount_one {n : Nat} (h1 : 1 ≤ n) (h16 : n ≤ 16) : blockCount n = 1 := by
  simp only [blockCount, ceilDiv, cfg]; omega

/-- The frame of a block item is a right header, the payload, and the two bytes of its CRC. -/
theorem oneBlockFrame_eq (p : BlkParse) :
    oneBlockFrame p = frameHeader p.addr p.payload.length ++ (p.payload ++ (le16 p.bcrc ++ [])) := by
  simp only [oneBlockFrame, frameHeader, List.append_assoc, List.append_nil]

section
variable {p : BlkParse} (h1 : 1 ≤ p.payload.length) (h16 : p.payload.length ≤ 16)
include h1 h16

/-- With the right CRC it is the frame of the payload. -/
theorem oneBlockFrame_of_crc (hcrc : p.bcrc = crc16 p.payload) : oneBlockFrame p = frame p.addr p.payload := by
  have whole : p.payload.take cfg.blockMax = p.payload := List.take_of_length_le h16
  simp only [oneBlockFrame_eq, frame_eq, blockCount_one h1 h16, encBlocks, whole, hcrc, List.append_assoc]

theorem frameLength_one : frameLength p.payload.length = 12 + p.payload.length := by
  rw [frameLength, blockCount_one h1 h16]; simp only [cfg]; omega

/-- LINK.DEC on a frame of one block whose CRC is right (R102). -/
theorem linkDecode_oneBlockFrame (hcrc : p.bcrc = crc16 p.payload) (s : State) :
    linkDecode (s.setIn (oneBlockFrame p)) = .next (((s.setIn (oneBlockFrame p)).setOut p.payload).finish .ok
      (.link p.addr.control p.addr.dest p.addr.src (BitVec.ofNat 16 (12 + p.payload.length)))) := by
  have hin : (s.setIn (oneBlockFrame p)).inBuf = frame p.addr p.payload ++ [] := by
    rw [List.append_nil]; exact oneBlockFrame_of_crc h1 h16 hcrc
  rw [linkDecode_frame hin (h16.trans (by decide)), frameLength_one h1 h16]

/-- LINK.DEC on a frame of one block whose CRC is wrong (R102, R104). -/
theorem linkDecode_oneBlockFrame_badCrc (hcrc : p.bcrc ≠ crc16 p.payload) (s : State) :
    linkDecode (s.setIn (oneBlockFrame p)) = .next (((s.setIn (oneBlockFrame p)).setOut []).failWith
      ⟨.badBlockCrc, 10 + p.payload.length, (crc16 p.payload).toNat, p.bcrc.toNat⟩
      (.dropped (BitVec.ofNat 16 (12 + p.payload.length)))) := by
  have hhdr : checkHeader (s.setIn (oneBlockFrame p)).inBuf = .ok p.payload.length := by
    rw [State.setIn_inBuf, oneBlockFrame_eq]
    refine checkHeader_frameHeader _ (h16.trans (by decide)) ?_
    simp [blockCount_one h1 h16]
  have hblk : decBlocks (s.setIn (oneBlockFrame p)).inBuf (blockCount p.payload.length) p.payload.length cfg.headerLen =
      .error ⟨.badBlockCrc, 10 + p.payload.length, (crc16 p.payload).toNat, p.bcrc.toNat⟩ := by
    rw [State.setIn_inBuf, oneBlockFrame_eq, blockCount_one h1 h16]
    exact decBlocks_badCrc (Nat.min_eq_right h16).symm hcrc.symm
  rw [linkDecode_block_error hhdr hblk, frameLength_one h1 h16]
  rfl

end

/-- Settles O51: the item is the frame of its payload, or differs from it in the block's CRC alone. -/
theorem dataBlockItem : Obligations.DataBlockItem := by
  refine ⟨fun b s h1 h16 => ?built, fun p s h1 h16 =>
    ⟨fun hcrc => linkDecode_oneBlockFrame h1 h16 hcrc s, fun hcrc => linkDecode_oneBlockFrame_badCrc h1 h16 hcrc s⟩⟩
  case built =>
    have encoded := linkEncode_ok (a := b.addr) (s := s.setIn b.payload) (h16.trans (by decide))
    rw [State.setIn_inBuf, ← oneBlockFrame_of_crc (p := ⟨b.addr, b.payload, crc16 b.payload⟩) h1 h16 rfl] at encoded
    exact ⟨_, encoded⟩

end Sys2Proof.Machine

/-! The Transport unit on its own segments (spec/42_transport.md R116 to R120, R125), below the Link unit and alone. -/

namespace Sys2Proof.Machine

/-! ### Segments (R52, R116) -/

/-- The transport header by its fields as a sum (R52). -/
theorem tphByte_eq_sum (fin fir : Bool) (seq : BitVec 6) :
    tphByte fin fir seq = BitVec.ofNat 8 ((if fin then 128 else 0) + (if fir then 64 else 0) + seq.toNat) := by
  revert fin fir seq; decide

theorem tpSegment_ok {seg : Byte} {s : State} (h1 : 1 ≤ seg.toNat) (hmax : seg.toNat ≤ cfg.segMax) :
    tpSegment seg s = .next (((s.setOut (segmentLayout
      (segments seg.toNat (segmentCount s.inBuf.length seg.toNat) true s.txSeq s.inBuf))).setTxSeq
        (s.txSeq + BitVec.ofNat 6 (segmentCount s.inBuf.length seg.toNat))).finish .ok
          (.segments (BitVec.ofNat 16 (segmentCount s.inBuf.length seg.toNat)))) :=
  if_neg (by omega)

/-- A fragment that fits one segment is one segment. -/
theorem segmentCount_one {n seg : Nat} (h1 : 1 ≤ seg) (h : n ≤ seg) : segmentCount n seg = 1 := by
  have : ceilDiv n seg < 2 := by
    rw [ceilDiv, Nat.div_lt_iff_lt_mul h1]; omega
  rw [segmentCount]; omega

/-- The segments of a fragment hold it. -/
theorem le_segmentCount_mul {n seg : Nat} (h1 : 1 ≤ seg) : n ≤ segmentCount n seg * seg := by
  have hceil : n ≤ ceilDiv n seg * seg := by
    have hdiv := Nat.div_add_mod' (n + (seg - 1)) seg
    have hmod := Nat.mod_lt (n + (seg - 1)) h1
    rw [ceilDiv]; omega
  exact hceil.trans (Nat.mul_le_mul_right seg (le_max_right ..))

theorem one_le_segmentCount (n seg : Nat) : 1 ≤ segmentCount n seg := le_max_left ..

/-- A segment is the header byte and at most `seg` bytes. -/
theorem segments_length {seg k : Nat} {fir : Bool} {q : BitVec 6} {a : Bytes} :
    ∀ x ∈ segments seg k fir q a, 1 ≤ x.length ∧ x.length ≤ 1 + seg := by
  induction k generalizing fir q a with
  | zero => simp [segments]
  | succ k ih =>
    rintro x (_ | ⟨_, hx⟩)
    · simp only [List.length_cons, List.length_take]; omega
    · exact ih x hx

/-! ### TP.RX, case by case (R118 to R120, R125) -/

/-- The message in progress is the bytes `old`. -/
structure HoldsMessage (s : State) (old : Bytes) : Prop where
  rxLen : s.rxLen.toNat = old.length
  rxBuf : s.rxBuf.readBytes 0 old.length = some old

theorem holdsMessage_nil (active : Bool) (s : State) : HoldsMessage (s.setRx active 0) [] := ⟨rfl, rfl⟩

/-- A segment appended to the message in progress (R120). -/
def State.keepSegment (h : Byte) (data : Bytes) (s : State) : State :=
  ((s.setRxBuf (s.rxBuf.writeBytes s.rxLen.toNat data)).setRx s.rxActive
    (BitVec.ofNat 13 (s.rxLen.toNat + data.length))).setRxExpect (tphSeq h + 1)

section
variable {s : State} {h : Byte} {data old : Bytes}

theorem tpReceive_first (hin : s.inBuf = h :: data) (hfir : tphFir h = true) :
    tpReceive s = tpAccept h data (((s.setOut []).setStale s.rxActive).setRx true 0) := by
  simp only [tpReceive, hin, hfir, if_true]

theorem tpReceive_next (hin : s.inBuf = h :: data) (hfir : tphFir h = false) (hact : s.rxActive = true)
    (hseq : tphSeq h = s.rxExpect) : tpReceive s = tpAccept h data ((s.setOut []).setStale false) := by
  simp [tpReceive, hin, hfir, hact, hseq]

variable (hold : HoldsMessage s old) (hcap : old.length + data.length ≤ cfg.rxBufMax)
include hold hcap

theorem HoldsMessage.keepSegment : HoldsMessage (s.keepSegment h data) (old ++ data) := by
  have hcap' : old.length + data.length ≤ 4096 := hcap
  constructor
  · simp only [State.keepSegment, State.setRxExpect_rxLen, State.setRx_rxLen, hold.rxLen, List.length_append,
      BitVec.toNat_ofNat]
    omega
  · simp only [State.keepSegment, State.setRxExpect_rxBuf, State.setRx_rxBuf, State.setRxBuf_rxBuf, hold.rxLen,
      List.length_append]
    exact Memory.readBytes_append hold.rxBuf

/-- With FIN = 0 the segment is kept and more are awaited. -/
theorem tpAccept_pending (hfin : tphFin h = false) :
    tpAccept h data s = .next ((s.keepSegment h data).finish .pending .none) := by
  have hfits : ¬cfg.rxBufMax < s.rxLen.toNat + data.length := by rw [hold.rxLen]; omega
  simp only [tpAccept, gt_iff_lt, if_neg hfits, hfin, Bool.false_eq_true, if_false]
  rfl

/-- With FIN = 1 the whole message is delivered. -/
theorem tpAccept_fin (hfin : tphFin h = true) :
    tpAccept h data s = .next ((((s.keepSegment h data).setOut (old ++ data)).setRx false 0).finish .ok .none) := by
  have hfits : ¬cfg.rxBufMax < s.rxLen.toNat + data.length := by rw [hold.rxLen]; omega
  have whole := (hold.keepSegment (h := h) hcap).rxBuf
  simp only [State.keepSegment, hold.rxLen, List.length_append] at whole hfits
  simp only [tpAccept, hold.rxLen, gt_iff_lt, if_neg hfits, hfin, if_true, whole]
  simp only [State.keepSegment, hold.rxLen]

end

/-! ### TPH, built and parsed -/

/-- Settles O52: one segment out of TP.SEG, one segment into TP.RX. -/
theorem transportHeaderItem : Obligations.TransportHeaderItem := by
  refine ⟨fun _ _ => rfl, fun seg s h1 hmax hfits => ?built, fun p s => ?parsed, fun seq data s hlen => ?delivered⟩
  case built =>
    have layout : segmentLayout (segments seg.toNat 1 true s.txSeq s.inBuf) =
        [BitVec.ofNat 8 (1 + s.inBuf.length), BitVec.ofNat 8 (128 + 64 + s.txSeq.toNat)] ++ s.inBuf := by
      simp [segmentLayout, segments, tphByte_eq_sum, List.take_of_length_le hfits, Nat.add_comm 1]
    have sent := tpSegment_ok (s := s) h1 hmax
    rw [segmentCount_one h1 hfits, layout] at sent
    exact sent
  case parsed =>
    simp only [← tphByte_eq_sum]
    rfl
  case delivered =>
    have header := tphByte_eq_sum true true seq
    simp only [if_true] at header
    have first := tpReceive_first (s := s.setIn (tphByte true true seq :: data)) rfl (tphFir_tphByte ..)
    rw [tpAccept_fin (holdsMessage_nil ..) (by simp only [cfg, List.length_nil]; omega) (tphFin_tphByte ..)] at first
    rw [← header]
    refine ⟨.none, first.trans ?_⟩
    simp only [State.keepSegment, tphSeq_tphByte]
    rfl

/-! ### A message in its segments -/

/-- The receiver takes a segment of the given FIR and sequence number as the next of a message whose bytes so far are
given: a first segment in any state, a later one where the message is in progress. -/
inductive Awaits (s : State) : Bool → BitVec 6 → Bytes → Prop where
  | first (q : BitVec 6) : Awaits s true q []
  | next {q : BitVec 6} {old : Bytes} : s.rxActive = true → s.rxExpect = q → HoldsMessage s old → Awaits s false q old

section
variable {s : State} {fin fir : Bool} {q : BitVec 6} {data old : Bytes} (h : Awaits s fir q old)
  (hin : s.inBuf = tphByte fin fir q :: data)
include h hin

/-- Both kinds of segment reach the end of TP.RX with the message so far held. -/
theorem Awaits.tpReceive_eq :
    ∃ u, tpReceive s = tpAccept (tphByte fin fir q) data u ∧ u.rxActive = true ∧ HoldsMessage u old := by
  cases h with
  | first q => exact ⟨_, tpReceive_first hin (tphFir_tphByte ..), rfl, holdsMessage_nil ..⟩
  | next hact hexp hold =>
    exact ⟨_, tpReceive_next hin (tphFir_tphByte ..) hact ((tphSeq_tphByte ..).trans hexp.symm), hact, { hold with }⟩

variable (hcap : old.length + data.length ≤ cfg.rxBufMax)
include hcap

theorem Awaits.tpReceive_more (hfin : fin = false) :
    ∃ v, tpReceive s = .next v ∧ Awaits v false (q + 1) (old ++ data) := by
  obtain ⟨u, hu, hact, hold⟩ := h.tpReceive_eq hin
  refine ⟨_, hu.trans (tpAccept_pending hold hcap (by rw [tphFin_tphByte, hfin])), ?_⟩
  exact .next hact (by simp [State.keepSegment]) { hold.keepSegment (h := tphByte fin fir q) hcap with }

theorem Awaits.tpReceive_last (hfin : fin = true) :
    ∃ v, tpReceive s = .next v ∧ v.status = 0x00 ∧ v.outBuf = old ++ data := by
  obtain ⟨u, hu, -, hold⟩ := h.tpReceive_eq hin
  exact ⟨_, hu.trans (tpAccept_fin hold hcap (by rw [tphFin_tphByte, hfin])), rfl, rfl⟩

end

/-! ### Segments in frames (R67) -/

/-- The state TP.RX runs on after LINK.DEC parsed the frame of `x` and the host moved `x` from OUT to IN. -/
def State.handUp (addr : LinkAddr) (x : Bytes) (r : State) : State :=
  (((r.setIn (frame addr x)).setOut x).finish .ok
    (.link addr.control addr.dest addr.src (BitVec.ofNat 16 (frameLength x.length)))).setIn x

theorem receiveFrames_frame {addr : LinkAddr} {x : Bytes} {fs : List Bytes} {r v : State}
    (hx : x.length ≤ cfg.linkPayloadMax) (hv : tpReceive (r.handUp addr x) = .next v) :
    receiveFrames (frame addr x :: fs) r = receiveFrames fs v := by
  have parsed : exec .linkDec (r.setIn (frame addr x)) = .next (((r.setIn (frame addr x)).setOut x).finish .ok
      (.link addr.control addr.dest addr.src (BitVec.ofNat 16 (frameLength x.length)))) :=
    linkDecode_frame (t := []) (List.append_nil _).symm hx
  have received : exec .tpRx (r.handUp addr x) = .next v := hv
  rw [receiveFrames, parsed]
  simp only [State.finish_status, Done.code, if_true, State.finish_outBuf, State.setOut_outBuf]
  rw [← State.handUp, received]

/-- LINK.DEC leaves the message in progress. -/
theorem Awaits.handUp {r : State} {fir : Bool} {q : BitVec 6} {old : Bytes} (h : Awaits r fir q old)
    (addr : LinkAddr) (x : Bytes) : Awaits (r.handUp addr x) fir q old := by
  cases h with
  | first q => exact .first q
  | next hact hexp hold => exact .next hact hexp { hold with }

/-- A segment is a payload LINK.ENC takes. -/
theorem segment_fits_frame {seg : Nat} (hseg : seg ≤ cfg.segMax) (h : Byte) (a : Bytes) :
    (h :: a.take seg).length ≤ cfg.linkPayloadMax := by
  simp only [cfg, List.length_cons, List.length_take] at *; omega

/-- The segments of `a`, framed, behind a message so far `old`: the last of them delivers the whole. -/
theorem receiveFrames_segments {addr : LinkAddr} {seg k : Nat} {fir : Bool} {q : BitVec 6} {a old : Bytes} {r : State}
    (hseg : seg ≤ cfg.segMax) (ha : a.length ≤ (k + 1) * seg) (hcap : old.length + a.length ≤ cfg.rxBufMax)
    (h : Awaits r fir q old) :
    ∃ v, receiveFrames ((segments seg (k + 1) fir q a).map (frame addr)) r = .next v ∧ v.status = 0x00 ∧
      v.outBuf = old ++ a := by
  induction k generalizing fir q a old r with
  | zero =>
    have whole : a.take seg = a := List.take_of_length_le (by omega)
    have hcap' : old.length + (a.take seg).length ≤ cfg.rxBufMax := by rw [whole]; exact hcap
    obtain ⟨v, hv, hstatus, hout⟩ := (h.handUp addr (tphByte true fir q :: a.take seg)).tpReceive_last rfl hcap' rfl
    exact ⟨v, receiveFrames_frame (segment_fits_frame hseg _ a) hv, hstatus, by rw [hout, whole]⟩
  | succ k ih =>
    have hrest : (a.drop seg).length ≤ (k + 1) * seg := by
      rw [List.length_drop]; rw [Nat.succ_mul] at ha; omega
    have split : old ++ a = old ++ a.take seg ++ a.drop seg := by rw [List.append_assoc, List.take_append_drop]
    have hcap' : (old ++ a.take seg).length + (a.drop seg).length ≤ cfg.rxBufMax := by
      rw [← List.length_append, ← split, List.length_append]; exact hcap
    obtain ⟨v, hv, hnext⟩ := (h.handUp addr (tphByte false fir q :: a.take seg)).tpReceive_more rfl
      (by rw [List.length_append] at hcap'; omega) rfl
    obtain ⟨w, hw, hstatus, hout⟩ := ih hrest hcap' hnext
    exact ⟨w, (receiveFrames_frame (segment_fits_frame hseg _ a) hv).trans hw, hstatus, hout.trans split.symm⟩

/-- Settles O39: LINK.DEC gives each segment back from its frame, and TP.RX the fragment from its segments. -/
theorem stackRoundTrip : Obligations.StackRoundTrip := by
  intro s r a seg addr ha h1 hmax
  obtain ⟨k, hk⟩ := Nat.exists_eq_add_of_le' (one_le_segmentCount a.length seg.toNat)
  have sent := tpSegment_ok (s := s.setIn a) h1 hmax
  have whole := le_segmentCount_mul (n := a.length) h1
  rw [State.setIn_inBuf, hk] at sent
  rw [hk] at whole
  have fits : ([] : Bytes).length + a.length ≤ cfg.rxBufMax := (Nat.zero_add a.length).le.trans ha
  have short : ∀ x ∈ segments seg.toNat (k + 1) true s.txSeq a, 1 ≤ x.length ∧ x.length ≤ 250 := by
    intro x hx
    have := segments_length x hx
    omega
  have framed : List.Forall₂ (fun x f => ∀ q : State, ∃ w, exec (.linkEnc addr) (q.setIn x) = .next w ∧
      w.status = 0x00 ∧ w.outBuf = f) (segments seg.toNat (k + 1) true s.txSeq a)
      ((segments seg.toNat (k + 1) true s.txSeq a).map (frame addr)) := by
    rw [List.forall₂_map_right_iff, List.forall₂_same]
    intro x hx q
    exact ⟨_, linkEncode_ok (short x hx).2, rfl, rfl⟩
  exact ⟨_, _, _, sent, rfl, short, framed,
    receiveFrames_segments hmax whole fits (.first s.txSeq)⟩

end Sys2Proof.Machine

/-! The encoders of data blocks, and APP.DEC on a fragment header alone (spec/43_application.md R141 to R146). -/

namespace Sys2Proof.Machine

/-! ### The checks of data blocks (R142) -/

section
variable {b : DataBlock} {j : Nat}

/-- A block R142 accepts passes its checks. -/
theorem dataBlockFail_accepted (h : blockAccepted b) : dataBlockFail j b = none := by
  obtain ⟨g, v, form, points⟩ := b
  obtain ⟨d, hd, hform⟩ := h
  simp only [dataBlockFail, hd]
  cases form with
  | all => exact hform.elim
  | index idx =>
    obtain ⟨hkind, hcount⟩ := hform
    simp [dataFormFail, rangeFail, formIsIndex, formCount, hkind, hcount]
  | range start stop =>
    obtain ⟨hle, hcount⟩ := hform
    simp [dataFormFail, rangeFail, formIsIndex, formCount, Nat.not_lt.2 hle, hcount]

/-- A block R142 refuses is refused by the check R142 names, with the values it records. -/
theorem dataBlockFail_refused {code : Byte} {expected actual : Nat} (h : BlockRefused b code expected actual) :
    ∃ e : Err, e.code = code ∧ dataBlockFail j b = some ⟨e, j, expected, actual⟩ := by
  obtain ⟨g, v, form, points⟩ := b
  cases h with
  | unknownObject hnone => exact ⟨.encUnknownObject, rfl, by simp only [dataBlockFail, hnone]⟩
  | formAll hd hform =>
    cases hform
    exact ⟨.encBadForm, rfl, by simp only [dataBlockFail, hd]; rfl⟩
  | backwards hd hform hlt =>
    cases hform
    exact ⟨.encBadForm, rfl, by simp [dataBlockFail, hd, dataFormFail, rangeFail, hlt]⟩
  | packedIndex hd hform hkind =>
    cases hform
    exact ⟨.encBadForm, rfl, by simp [dataBlockFail, hd, dataFormFail, rangeFail, formIsIndex, hkind, cfg]⟩
  | countOfIndex hd hform hkind hcount =>
    cases hform
    exact ⟨.encBadForm, rfl, by
      simp [dataBlockFail, hd, dataFormFail, rangeFail, formIsIndex, formCount, cut16, hkind, hcount]⟩
  | countOfRange hd hform hle hcount =>
    cases hform
    exact ⟨.encBadForm, rfl, by
      simp [dataBlockFail, hd, dataFormFail, rangeFail, formIsIndex, formCount, cut16, Nat.not_lt.2 hle, hcount]⟩

/-- Blocks that pass hand the check on to the blocks after them. -/
theorem checkDataBlocks_append {pre rest : List DataBlock} (h : ∀ c ∈ pre, blockAccepted c) :
    checkDataBlocks j (pre ++ rest) = checkDataBlocks (j + pre.length) rest := by
  induction pre generalizing j with
  | nil => rfl
  | cons c pre ih =>
    obtain ⟨hc, hpre⟩ := List.forall_mem_cons.1 h
    rw [List.cons_append, checkDataBlocks, dataBlockFail_accepted hc]
    simp only
    rw [ih hpre, List.length_cons]
    congr 1
    omega

theorem checkDataBlocks_accepted {blocks : List DataBlock} (h : ∀ c ∈ blocks, blockAccepted c) :
    checkDataBlocks j blocks = none := by
  have all := checkDataBlocks_append (j := j) (rest := []) h
  rwa [List.append_nil] at all

end

/-! ### How an encoder ends (R141, R142) -/

/-- With no block refused the fragment is emitted, or it is too long. -/
theorem emitFragment_none (fragment : Bytes) (s : State) :
    emitFragment none fragment s = .next (emitted fragment s) := by
  rcases Nat.lt_or_ge cfg.apduMax fragment.length with hlen | hlen
  · exact (emitFragment_long hlen).trans (congrArg _ (if_neg (Nat.not_le.2 hlen)).symm)
  · exact (emitFragment_ok hlen).trans (congrArg _ (if_pos hlen).symm)

/-- An instruction whose work is the encoding of data blocks behind a header does what R142 says. -/
theorem encodesBlocks_of_exec {i : Instr} {head : Bytes} {blocks : List DataBlock}
    (h : ∀ s, exec i s = emitFragment (checkDataBlocks 0 blocks) (head ++ blocks.flatMap encDataBlock) s) :
    encodesBlocks i head blocks := by
  refine fun s => ⟨?refused, fun hall => ⟨(emitted (head ++ blocks.flatMap encDataBlock) s).results, ?emitted⟩⟩
  case refused =>
    rintro pre b post code expected actual rfl hpre hb
    obtain ⟨e, rfl, hfail⟩ := dataBlockFail_refused (j := 0 + pre.length) hb
    rw [h, checkDataBlocks_append hpre, checkDataBlocks, hfail, Nat.zero_add]
    rfl
  case emitted => rw [h, checkDataBlocks_accepted hall, emitFragment_none]

/-! ### A fragment header alone (R146) -/

/-- The indications as a sum (R55). -/
theorem iinWord_eq_sum (iin1 iin2 : Byte) : iinWord iin1 iin2 = BitVec.ofNat 16 (iin1.toNat + 256 * iin2.toNat) := by
  have low : iin1.toNat < 2 ^ 8 := iin1.isLt
  have high : iin2.toNat < 2 ^ 8 := iin2.isLt
  have joined : iin2.toNat <<< 8 ||| iin1.toNat = iin2.toNat <<< 8 + iin1.toNat :=
    (Nat.shiftLeft_add_eq_or_of_lt low _).symm
  apply BitVec.eq_of_toNat_eq
  simp only [iinWord, BitVec.toNat_or, BitVec.toNat_shiftLeft, BitVec.toNat_setWidth, BitVec.toNat_ofNat]
  rw [Nat.mod_eq_of_lt (by omega : iin1.toNat < 2 ^ 16), Nat.mod_eq_of_lt (by omega : iin2.toNat < 2 ^ 16),
    Nat.mod_eq_of_lt (by rw [Nat.shiftLeft_eq]; omega), Nat.lor_comm, joined, Nat.shiftLeft_eq]
  omega

/-- A RESPONSE has its indications in the header, which is four bytes. -/
theorem decHeader_response (apc iin1 iin2 : Byte) (tail : Bytes) :
    decHeader (apc :: 0x81 :: iin1 :: iin2 :: tail) = .ok (⟨controlBits apc, 0x81, .response, true, iin1, iin2,
      BitVec.ofNat 16 (iin1.toNat + 256 * iin2.toNat)⟩, 4) := by
  rw [← iinWord_eq_sum]
  have long (n : Nat) (hn : n ≤ 4) : ¬(apc :: 0x81 :: iin1 :: iin2 :: tail).length < n := by
    simp only [List.length_cons]; omega
  simp only [decHeader, if_neg (long 2 (by omega)), if_neg (long 4 (by omega))]
  rfl

/-- A CONFIRM has no indications; its header is two bytes. -/
theorem decHeader_confirm (apc : Byte) (tail : Bytes) :
    decHeader (apc :: 0x00 :: tail) = .ok (⟨controlBits apc, 0x00, .confirm, false, 0, 0, 0⟩, 2) := by
  have long : ¬(apc :: 0x00 :: tail).length < 2 := by simp only [List.length_cons]; omega
  simp only [decHeader, if_neg long]
  rfl

/-- No object block stands after the last byte. -/
theorem decFragment_bare {f : Bytes} {hd : AppHeader} (h : decHeader f = .ok (hd, f.length)) :
    decFragment f = .ok (hd, []) := by
  have none_left (fuel : Nat) : decObjects f fuel f.length = .ok [] := by
    cases fuel with
    | zero => rfl
    | succ fuel => exact if_neg (Nat.lt_irrefl _)
  simp only [decFragment, h, none_left]

/-- APP.DEC on a fragment that is its header alone reports the header and no point. -/
theorem appDecode_bare {s : State} {hd : AppHeader} (h : decHeader s.inBuf = .ok (hd, s.inBuf.length)) :
    appDecode s = .next ((s.setPts []).finish .ok (.fragment hd)) :=
  appDecode_ok (decFragment_bare h)

/-! ### APC and IIN, built and parsed -/

/-- Settles O53: each item built is APP.ENC.RESP, and each parsed stands in the header APP.DEC reads. -/
theorem controlAndIndicationItems : Obligations.ControlAndIndicationItems := by
  refine ⟨fun a => ?built, fun p s => ?apc, fun p s => ⟨rfl, fun htail => ?iin⟩⟩
  case built =>
    rw [← apcByte_eq_controlByte]
    exact ⟨encodesBlocks_of_exec fun _ => rfl, encodesBlocks_of_exec fun _ => rfl⟩
  case apc =>
    obtain ⟨ctrl, tail⟩ := p
    have bits : controlBits (apcByte ctrl) = ctrl := apcBits_apcByte ctrl
    rw [← apcByte_eq_controlByte]
    refine ⟨rfl, ?response, ?confirm⟩
    case response =>
      rintro iin1 iin2 rfl
      have header := decHeader_response (apcByte ctrl) iin1 iin2 []
      rw [bits] at header
      exact appDecode_bare (s := s.setIn (apcByte ctrl :: [0x81, iin1, iin2])) header
    case confirm =>
      rintro rfl
      have header := decHeader_confirm (apcByte ctrl) []
      rw [bits] at header
      exact appDecode_bare (s := s.setIn (apcByte ctrl :: [0x00])) header
  case iin =>
    obtain ⟨apc, iin1, iin2, tail⟩ := p
    subst htail
    exact appDecode_bare (s := s.setIn [apc, 0x81, iin1, iin2]) (decHeader_response apc iin1 iin2 [])

end Sys2Proof.Machine

/-! The CRC unit (spec/40_crc.md R80 to R87): the byte step as an iteration, the stream operations, and CRC.CALC and
CRC.CHK. -/

namespace Sys2Proof.Machine

/-! ### The function (R80, R81) -/

/-- One round of R80 with its constant written out. -/
theorem crcBit_eq (acc : U16) :
    crcBit acc = if acc.getLsbD 0 = true then (acc >>> 1) ^^^ 0xA6BC else acc >>> 1 := rfl

theorem crcShifts_eq_iterate (n : Nat) (acc : U16) : crcShifts n acc = crcBit^[n] acc := by
  induction n generalizing acc with
  | zero => rfl
  | succ n ih => rw [crcShifts, ih, Function.iterate_succ_apply]

theorem crcStep_eq_iterate (acc : U16) (b : Byte) : crcStep acc b = crcBit^[8] (acc ^^^ b.setWidth 16) :=
  crcShifts_eq_iterate 8 _

/-- `crc16` with the constants of R81 written out. -/
theorem crc16_eq_foldl (s : Bytes) : crc16 s = s.foldl crcStep 0x0000 ^^^ 0xFFFF := rfl

/-- Settles O17: eight shifts are the round iterated, and the empty string leaves the initial register. -/
theorem crcDefinition : Obligations.CrcDefinition := by
  refine ⟨fun acc b => ?step, crc16_eq_foldl, ?empty⟩
  case step => rw [crcStep_eq_iterate, funext crcBit_eq]
  case empty => exact (crc16_eq_foldl []).trans BitVec.zero_xor

/-! ### The stream operations (R83 to R85) -/

theorem exec_crcClr (s : State) : exec .crcClr s = .next ((s.setCrcAcc 0x0000).endedOk .none) := rfl

theorem exec_crcUpd (b : Byte) (s : State) :
    exec (.crcUpd b) s = .next ((s.setCrcAcc (crcStep s.crcAcc b)).endedOk .none) := rfl

theorem exec_crcRd (s : State) : exec .crcRd s = .next (s.endedOk (.crc (s.crcAcc ^^^ 0xFFFF))) := rfl

/-- Settles O20: each operation is one write of CRC_ACC, or none, before `done OK`. -/
theorem crcStreamOperations : Obligations.CrcStreamOperations :=
  fun s => ⟨⟨.none, exec_crcClr s⟩, fun b => ⟨.none, exec_crcUpd b s⟩, exec_crcRd s⟩

/-! ### The whole-string operations (R86, R87) -/

theorem exec_crcCalc (s : State) : exec .crcCalc s = .next (s.endedOk (.crc (crc16 s.inBuf))) := rfl

/-- The last two bytes of a string, low first, as a sum (R35). -/
theorem word16At_trailing (d : Bytes) (lo hi : Byte) :
    word16At (d ++ [lo, hi]) d.length = BitVec.ofNat 16 (lo.toNat + 256 * hi.toNat) :=
  (word16At_append d [lo, hi] 0).trans (iinWord_eq_sum lo hi)

/-- Two bytes together are below 2^16, so a word is compared with them as numbers without loss. -/
theorem beq_ofNat_bytes (c : U16) (lo hi : Byte) :
    (c == BitVec.ofNat 16 (lo.toNat + 256 * hi.toNat)) = decide (c.toNat = lo.toNat + 256 * hi.toNat) := by
  have fits : lo.toNat + 256 * hi.toNat < 2 ^ 16 := by
    have hlo := lo.isLt
    have hhi := hi.isLt
    omega
  rw [beq_eq_decide, decide_eq_decide, ← BitVec.toNat_inj, BitVec.toNat_ofNat, Nat.mod_eq_of_lt fits]

/-- CRC.CHK on a string and two bytes behind it compares the string's CRC with them (R87). -/
theorem execCrcChk_append {s : State} {d : Bytes} {lo hi : Byte} (h : s.inBuf = d ++ [lo, hi]) :
    execCrcChk s = .next (s.endedOk (.check (decide ((crc16 d).toNat = lo.toNat + 256 * hi.toNat)) (crc16 d)
      (BitVec.ofNat 16 (lo.toNat + 256 * hi.toNat)))) := by
  have hlen : s.inBuf.length = d.length + 2 := by rw [h, List.length_append]; rfl
  have covered : s.inBuf.take d.length = d := by rw [h, List.take_left]
  have received : word16At s.inBuf d.length = BitVec.ofNat 16 (lo.toNat + 256 * hi.toNat) := by
    rw [h, word16At_trailing]
  have checked := execCrcChk_of_two_le (s := s) (by omega)
  rwa [hlen, Nat.add_sub_cancel, covered, received, beq_ofNat_bytes] at checked

/-- Settles O21: CRC.CHK is told apart by whether IN has its two trailing bytes. -/
theorem crcWholeStringOperations : Obligations.CrcWholeStringOperations :=
  fun s => ⟨exec_crcCalc s, execCrcChk_short, fun _ _ _ => execCrcChk_append⟩

end Sys2Proof.Machine

/-! The Link unit (spec/41_link.md R98 to R105): the frame LINK.ENC builds written out byte by byte, every verdict of LINK.DEC
in the order of its checks, and what more bytes behind the same IN change. -/

namespace Sys2Proof.Machine

/-! ### The frame, byte by byte (R98 to R100) -/

/-- The data blocks of a payload are its runs of 16 bytes, each with its CRC (R50). -/
theorem encBlocks_eq_flatMap (k : Nat) (p : Bytes) :
    encBlocks k p = (List.range k).flatMap
      (fun j => (p.drop (16 * j)).take 16 ++ le16 (crc16 ((p.drop (16 * j)).take 16))) := by
  induction k generalizing p with
  | zero => rfl
  | succ k ih =>
    have later (j : Nat) : (p.drop cfg.blockMax).drop (16 * j) = p.drop (16 * j.succ) := by
      rw [List.drop_drop, Nat.mul_succ, Nat.add_comm]; rfl
    simp only [encBlocks, ih, later, List.range_succ_eq_map, List.flatMap_cons, List.flatMap_map]
    rfl

/-- Settles O23: the header's CRC covers the last six of its first eight bytes, and the blocks follow one by one. -/
theorem linkEncodeBuildsFrame : Obligations.LinkEncodeBuildsFrame := by
  intro a s p n body f
  have bytes : frame a p = f := by rw [frame, encBlocks_eq_flatMap]; rfl
  refine ⟨fun hn => ⟨⟨.none, ?built⟩, ?length⟩, fun hn => linkEncode_long hn⟩
  case built => exact bytes ▸ linkEncode_ok hn
  case length => exact bytes ▸ frame_length a p

/-! ### The verdict on a header (R102 steps 1 to 5, R103) -/

/-- The start bytes that are there are right. -/
structure Started (buf : Bytes) : Prop where
  start0 : 1 ≤ buf.length → byteAt buf 0 = cfg.start0
  start1 : 2 ≤ buf.length → byteAt buf 1 = cfg.start1

/-- A header that is there whole, with right start bytes and a right CRC. -/
structure HeaderIntact (buf : Bytes) : Prop extends Started buf where
  whole : cfg.headerLen ≤ buf.length
  crc : headerCrc (buf.take 8) = word16At buf 8

/-- The payload bytes a header announces. -/
def announced (buf : Bytes) : Nat := (byteAt buf 2).toNat - cfg.lenBase

/-- What the checks of the header answer, one constructor for each ending, with all that was found before it. -/
inductive HeaderVerdict (buf : Bytes) : Except Fail Nat → Prop where
  | badStart0 (given : 1 ≤ buf.length) (bad : byteAt buf 0 ≠ cfg.start0) :
      HeaderVerdict buf (.error ⟨.badStart, 0, cfg.start0.toNat, (byteAt buf 0).toNat⟩)
  | badStart1 (given : 2 ≤ buf.length) (start0 : byteAt buf 0 = cfg.start0) (bad : byteAt buf 1 ≠ cfg.start1) :
      HeaderVerdict buf (.error ⟨.badStart, 1, cfg.start1.toNat, (byteAt buf 1).toNat⟩)
  | short (started : Started buf) (few : buf.length < cfg.headerLen) :
      HeaderVerdict buf (.error ⟨.truncated, buf.length, cfg.headerLen, buf.length⟩)
  | badCrc (started : Started buf) (whole : cfg.headerLen ≤ buf.length)
      (bad : headerCrc (buf.take 8) ≠ word16At buf 8) :
      HeaderVerdict buf (.error ⟨.badHeaderCrc, 8, (headerCrc (buf.take 8)).toNat, (word16At buf 8).toNat⟩)
  | badLength (intact : HeaderIntact buf) (bad : (byteAt buf 2).toNat < cfg.lenBase) :
      HeaderVerdict buf (.error ⟨.badLength, 2, cfg.lenBase, (byteAt buf 2).toNat⟩)
  | cut (intact : HeaderIntact buf) (length : cfg.lenBase ≤ (byteAt buf 2).toNat)
      (few : buf.length < frameLength (announced buf)) :
      HeaderVerdict buf (.error ⟨.truncated, buf.length, frameLength (announced buf), buf.length⟩)
  | complete (intact : HeaderIntact buf) (length : cfg.lenBase ≤ (byteAt buf 2).toNat)
      (enough : frameLength (announced buf) ≤ buf.length) :
      HeaderVerdict buf (.ok (announced buf))

section
variable {buf : Bytes}

theorem Started.not_badStart (h : Started buf) :
    ¬(1 ≤ buf.length ∧ byteAt buf 0 ≠ cfg.start0) ∧ ¬(2 ≤ buf.length ∧ byteAt buf 1 ≠ cfg.start1) :=
  ⟨fun ⟨given, bad⟩ => bad (h.start0 given), fun ⟨given, bad⟩ => bad (h.start1 given)⟩

/-- The checks answer the verdict. -/
theorem HeaderVerdict.checkHeader_eq {r : Except Fail Nat} (h : HeaderVerdict buf r) : checkHeader buf = r := by
  simp only [checkHeader]
  cases h with
  | badStart0 given bad => rw [if_pos ⟨given, bad⟩]
  | badStart1 given start0 bad => rw [if_neg fun h => h.2 start0, if_pos ⟨given, bad⟩]
  | short started few =>
    obtain ⟨h0, h1⟩ := started.not_badStart
    rw [if_neg h0, if_neg h1, if_pos few]
  | badCrc started whole bad =>
    obtain ⟨h0, h1⟩ := started.not_badStart
    rw [if_neg h0, if_neg h1, if_neg (Nat.not_lt.2 whole), if_pos bad]
  | badLength intact bad =>
    obtain ⟨h0, h1⟩ := intact.not_badStart
    rw [if_neg h0, if_neg h1, if_neg (Nat.not_lt.2 intact.whole), if_neg (not_not.2 intact.crc), if_pos bad]
  | cut intact length few =>
    obtain ⟨h0, h1⟩ := intact.not_badStart
    rw [if_neg h0, if_neg h1, if_neg (Nat.not_lt.2 intact.whole), if_neg (not_not.2 intact.crc),
      if_neg (Nat.not_lt.2 length)]
    exact if_pos few
  | complete intact length enough =>
    obtain ⟨h0, h1⟩ := intact.not_badStart
    rw [if_neg h0, if_neg h1, if_neg (Nat.not_lt.2 intact.whole), if_neg (not_not.2 intact.crc),
      if_neg (Nat.not_lt.2 length)]
    exact if_neg (Nat.not_lt.2 enough)

/-- There is always a verdict: the checks' own. -/
theorem headerVerdict (buf : Bytes) : HeaderVerdict buf (checkHeader buf) := by
  simp only [checkHeader]
  by_cases h0 : 1 ≤ buf.length ∧ byteAt buf 0 ≠ cfg.start0
  case pos => rw [if_pos h0]; exact .badStart0 h0.1 h0.2
  by_cases h1 : 2 ≤ buf.length ∧ byteAt buf 1 ≠ cfg.start1
  case pos =>
    rw [if_neg h0, if_pos h1]
    exact .badStart1 h1.1 (not_not.1 fun bad => h0 ⟨Nat.le_of_succ_le h1.1, bad⟩) h1.2
  have started : Started buf :=
    ⟨fun given => not_not.1 fun bad => h0 ⟨given, bad⟩, fun given => not_not.1 fun bad => h1 ⟨given, bad⟩⟩
  rw [if_neg h0, if_neg h1]
  split_ifs with few crc length cut
  · exact .short started few
  · exact .badCrc started (Nat.not_lt.1 few) crc
  · exact .badLength ⟨started, Nat.not_lt.1 few, not_not.1 crc⟩ length
  · exact .cut ⟨started, Nat.not_lt.1 few, not_not.1 crc⟩ (Nat.not_lt.1 length) cut
  · exact .complete ⟨started, Nat.not_lt.1 few, not_not.1 crc⟩ (Nat.not_lt.1 length) (Nat.not_lt.1 cut)

end

/-- The span of a header's CRC, in the offsets of the frame (R99). -/
theorem headerCrc_take (buf : Bytes) : headerCrc (buf.take 8) = crc16 (slice buf 2 6) := by
  have span : slice (buf.take 8) 2 6 = slice buf 2 6 := by simp [slice, List.drop_take]
  exact congrArg crc16 span

/-! ### The verdict on the data blocks (R102 step 6) -/

section
variable {buf : Bytes} {n j k : Nat}

/-- After block `j` of several the cursor stands at block `j + 1`; after the last nothing is read. -/
theorem decBlocks_cursor (hk : j + 1 + k ≤ blockCount n) :
    decBlocks buf k (n - 16 * j - blockSize n j) (blockOffset j + blockSize n j + 2) =
      decBlocks buf k (n - 16 * (j + 1)) (blockOffset (j + 1)) := by
  cases k with
  | zero => rfl
  | succ k =>
    have full : 16 * (j + 1) ≤ n := by simp only [blockCount, ceilDiv, cfg] at hk; omega
    have size : blockSize n j = 16 := by rw [blockSize]; omega
    have left : n - 16 * j - 16 = n - 16 * (j + 1) := by omega
    have offset : blockOffset j + 16 + 2 = blockOffset (j + 1) := by rw [blockOffset, blockOffset]; omega
    rw [size, left, offset]

/-- The error R102 reports for data block `j`. -/
def blockFail (buf : Bytes) (n j : Nat) : Fail :=
  ⟨.badBlockCrc, blockOffset j + blockSize n j, (crc16 (slice buf (blockOffset j) (blockSize n j))).toNat,
    (word16At buf (blockOffset j + blockSize n j)).toNat⟩

theorem decBlocks_bad (hbad : blockBad buf n j) :
    decBlocks buf (k + 1) (n - 16 * j) (blockOffset j) = .error (blockFail buf n j) := if_pos hbad

/-- A block that is not bad stands before what the later ones give. -/
theorem decBlocks_good (hgood : ¬blockBad buf n j) (hk : j + 1 + k ≤ blockCount n) :
    decBlocks buf (k + 1) (n - 16 * j) (blockOffset j) =
      (decBlocks buf k (n - 16 * (j + 1)) (blockOffset (j + 1))).map
        (slice buf (blockOffset j) (blockSize n j) ++ ·) := by
  have size : min cfg.blockMax (n - 16 * j) = blockSize n j := rfl
  rw [blockBad] at hgood
  simp only [decBlocks, size]
  rw [if_neg hgood, decBlocks_cursor hk]
  cases decBlocks buf k (n - 16 * (j + 1)) (blockOffset (j + 1)) <;> rfl

/-- The first bad block is the one reported. -/
theorem decBlocks_firstBad {i : Nat} (hk : i + k = blockCount n) (hij : i ≤ j) (hj : j < blockCount n)
    (hbad : blockBad buf n j) (hfirst : ∀ l, l < j → ¬blockBad buf n l) :
    decBlocks buf k (n - 16 * i) (blockOffset i) = .error (blockFail buf n j) := by
  induction k generalizing i with
  | zero => omega
  | succ k ih =>
    rcases hij.eq_or_lt with rfl | hlt
    · exact decBlocks_bad hbad
    · rw [decBlocks_good (hfirst i hlt) (by omega), ih (by omega) hlt]
      rfl

/-- Without a bad block the payload is the blocks one after the other. -/
theorem decBlocks_allGood {i : Nat} (hk : i + k = blockCount n) (hgood : ∀ l, l < blockCount n → ¬blockBad buf n l) :
    decBlocks buf k (n - 16 * i) (blockOffset i) =
      .ok ((List.range' i k).flatMap fun l => slice buf (blockOffset l) (blockSize n l)) := by
  induction k generalizing i with
  | zero => rfl
  | succ k ih =>
    rw [decBlocks_good (hgood i (by omega)) (by omega), ih (by omega), List.range'_succ, List.flatMap_cons]
    rfl

end

/-! ### Every ending of LINK.DEC (R102 to R104) -/

/-- A header that is refused ends LINK.DEC. -/
theorem HeaderVerdict.linkDecode_eq {s : State} {f : Fail} (h : HeaderVerdict s.inBuf (.error f)) :
    linkDecode s = .next ((s.setOut []).failWith f (.dropped (BitVec.ofNat 16 (consumedOn f.err 0)))) :=
  linkDecode_header_error h.checkHeader_eq

/-- Settles O24: the clauses are the verdicts on the header and then those on the blocks. -/
theorem linkDecodeChecksInOrder : Obligations.LinkDecodeChecksInOrder := by
  intro s buf m u hcrc len n total
  have crc : headerCrc (buf.take 8) = hcrc := headerCrc_take buf
  refine ⟨fun given bad => (HeaderVerdict.badStart0 given bad).linkDecode_eq,
    fun given start0 bad => (HeaderVerdict.badStart1 given start0 bad).linkDecode_eq, fun start0 start1 => ?started⟩
  case started =>
    have started : Started buf := ⟨start0, start1⟩
    refine ⟨fun few => (HeaderVerdict.short started few).linkDecode_eq, fun whole bad => ?badCrc,
      fun whole good bad => (HeaderVerdict.badLength ⟨started, whole, crc.trans good⟩ bad).linkDecode_eq,
      fun whole good length few => (HeaderVerdict.cut ⟨started, whole, crc.trans good⟩ length few).linkDecode_eq,
      fun whole good length enough => ?blocks⟩
    case badCrc =>
      rw [← crc] at bad ⊢
      exact (HeaderVerdict.badCrc started whole bad).linkDecode_eq
    case blocks =>
      have header := (HeaderVerdict.complete ⟨started, whole, crc.trans good⟩ length enough).checkHeader_eq
      refine ⟨fun j hj bad first => ?bad, fun allGood => ?good⟩
      case bad =>
        exact linkDecode_block_error header (decBlocks_firstBad (Nat.zero_add _) (Nat.zero_le j) hj bad first)
      case good =>
        rw [List.range_eq_range']
        exact linkDecode_ok header (decBlocks_allGood (Nat.zero_add _) allGood)

/-! ### The same bytes with more behind them (R102, R105) -/

section
variable {b : Bytes} (x : Bytes) {i k n : Nat}

theorem byteAt_append_left (h : i < b.length) : byteAt (b ++ x) i = byteAt b i := by
  rw [byteAt, byteAt, List.getD_append _ _ _ _ h]

theorem word16At_append_left (h : i + 2 ≤ b.length) : word16At (b ++ x) i = word16At b i := by
  rw [word16At, word16At, byteAt_append_left x (by omega), byteAt_append_left x (by omega)]

theorem slice_append_left (h : i + n ≤ b.length) : slice (b ++ x) i n = slice b i n := by
  rw [slice, slice, List.drop_append_of_le_length (by omega),
    List.take_append_of_le_length (by rw [List.length_drop]; omega)]

/-- What the checks read of a whole header. -/
theorem header_append (h : cfg.headerLen ≤ b.length) :
    (b ++ x).take 8 = b.take 8 ∧ word16At (b ++ x) 8 = word16At b 8 ∧ byteAt (b ++ x) 2 = byteAt b 2 := by
  have h10 : 10 ≤ b.length := h
  exact ⟨List.take_append_of_le_length (by omega), word16At_append_left x h10, byteAt_append_left x (by omega)⟩

theorem announced_append (h : cfg.headerLen ≤ b.length) : announced (b ++ x) = announced b := by
  obtain ⟨-, -, length⟩ := header_append x h
  rw [announced, announced, length]

/-- The blocks read nothing behind their own bytes and CRCs. -/
theorem decBlocks_append (h : i + n + 2 * k ≤ b.length) : decBlocks (b ++ x) k n i = decBlocks b k n i := by
  induction k generalizing i n with
  | zero => rfl
  | succ k ih =>
    simp only [decBlocks]
    rw [slice_append_left x (by omega), word16At_append_left x (by omega), ih (by omega)]

theorem le_length_append (h : k ≤ b.length) : k ≤ (b ++ x).length :=
  h.trans (List.length_append ▸ Nat.le_add_right ..)

theorem Started.append (h : Started b) (h2 : 2 ≤ b.length) : Started (b ++ x) where
  start0 _ := (byteAt_append_left x (by omega)).trans (h.start0 (by omega))
  start1 _ := (byteAt_append_left x (by omega)).trans (h.start1 h2)

theorem HeaderIntact.append (h : HeaderIntact b) : HeaderIntact (b ++ x) := by
  obtain ⟨first8, crc, -⟩ := header_append x h.whole
  refine ⟨h.toStarted.append x (h.whole.trans' (by decide)), le_length_append x h.whole, ?_⟩
  rw [first8, crc, h.crc]

/-- Every verdict but Truncated is the verdict on any extension. -/
theorem HeaderVerdict.append {r : Except Fail Nat} (h : HeaderVerdict b r)
    (hr : ∀ f, r = .error f → f.err ≠ .truncated) : HeaderVerdict (b ++ x) r := by
  cases h with
  | badStart0 given bad =>
    rw [← byteAt_append_left x given] at bad ⊢
    exact .badStart0 (le_length_append x given) bad
  | badStart1 given start0 bad =>
    rw [← byteAt_append_left x (by omega)] at start0
    rw [← byteAt_append_left x given] at bad ⊢
    exact .badStart1 (le_length_append x given) start0 bad
  | short started few => exact absurd rfl (hr _ rfl)
  | badCrc started whole bad =>
    obtain ⟨first8, crc, -⟩ := header_append x whole
    rw [← first8, ← crc] at bad ⊢
    exact .badCrc (started.append x (whole.trans' (by decide))) (le_length_append x whole) bad
  | badLength intact bad =>
    obtain ⟨-, -, length⟩ := header_append x intact.whole
    rw [← length] at bad ⊢
    exact .badLength (intact.append x) bad
  | cut intact length few => exact absurd rfl (hr _ rfl)
  | complete intact length enough =>
    obtain ⟨-, -, same⟩ := header_append x intact.whole
    rw [← same] at length
    rw [← announced_append x intact.whole] at enough ⊢
    exact .complete (intact.append x) length (le_length_append x enough)

end

/-- A complete frame: its header is there and it is no longer than the bytes. -/
theorem checkHeader_ok {buf : Bytes} {n : Nat} (h : checkHeader buf = .ok n) :
    HeaderIntact buf ∧ n = announced buf ∧ frameLength n ≤ buf.length := by
  have verdict := headerVerdict buf
  rw [h] at verdict
  cases verdict with
  | complete intact length enough => exact ⟨intact, rfl, enough⟩

/-- A frame that is whole is read the same with more bytes behind it. -/
theorem checkHeader_append_ok {b : Bytes} {n : Nat} (x : Bytes) (h : checkHeader b = .ok n) :
    checkHeader (b ++ x) = .ok n ∧
      decBlocks (b ++ x) (blockCount n) n cfg.headerLen = decBlocks b (blockCount n) n cfg.headerLen := by
  have verdict : HeaderVerdict b (.ok n) := h ▸ headerVerdict b
  obtain ⟨-, -, enough⟩ := checkHeader_ok h
  exact ⟨(verdict.append x nofun).checkHeader_eq, decBlocks_append x enough⟩

/-- Settles O27: the header's verdict stands, and the blocks lie within the frame. -/
theorem linkDecodeIgnoresLaterBytes : Obligations.LinkDecodeIgnoresLaterBytes := by
  intro s t b x run status
  rcases linkDecode_cases run with ⟨f, header, rfl⟩ | ⟨n, f, header, blocks, rfl⟩ | ⟨n, p, header, blocks, rfl⟩
  case inl =>
    have judged : f.err ≠ .truncated := fun h => status (congrArg Err.code h)
    have verdict : HeaderVerdict b (.error f) := header ▸ headerVerdict b
    have later := verdict.append x (by rintro _ ⟨⟩; exact judged)
    exact later.linkDecode_eq (s := s.setIn (b ++ x))
  case inr.inl =>
    obtain ⟨header', blocks'⟩ := checkHeader_append_ok x header
    exact linkDecode_block_error (s := s.setIn (b ++ x)) header' (blocks'.trans blocks)
  case inr.inr =>
    obtain ⟨header', blocks'⟩ := checkHeader_append_ok x header
    obtain ⟨intact, -, -⟩ := checkHeader_ok header
    have h10 : 10 ≤ b.length := intact.whole
    have control : byteAt (b ++ x) 3 = byteAt b 3 := byteAt_append_left x (by omega)
    have dest : word16At (b ++ x) 4 = word16At b 4 := word16At_append_left x (by omega)
    have src : word16At (b ++ x) 6 = word16At b 6 := word16At_append_left x (by omega)
    have whole := linkDecode_ok (s := s.setIn (b ++ x)) header' (blocks'.trans blocks)
    simp only [State.setIn_inBuf, control, dest, src] at whole
    exact whole

/-! ### Truncated (R105) -/

theorem Err.eq_truncated_of_code {e : Err} (h : e.code = 0x10) : e = .truncated := by
  revert h
  cases e <;> decide

/-- The blocks fail with one error only. -/
theorem decBlocks_error {buf : Bytes} {k n pos : Nat} {f : Fail} (h : decBlocks buf k n pos = .error f) :
    f.err = .badBlockCrc := by
  induction k generalizing n pos with
  | zero => cases h
  | succ k ih =>
    simp only [decBlocks] at h
    split at h
    · cases h; rfl
    · split at h <;> cases h
      exact ih (by assumption)

/-- Truncated comes from the header's checks. -/
theorem linkDecode_truncated {s t : State} (run : linkDecode s = .next t) (status : t.status = 0x10) :
    ∃ f, HeaderVerdict s.inBuf (.error f) ∧ f.err = .truncated ∧ t = (s.setOut []).failWith f (.dropped 0) := by
  rcases linkDecode_cases run with ⟨f, header, rfl⟩ | ⟨n, f, -, blocks, rfl⟩ | ⟨n, p, -, -, rfl⟩
  · have truncated := Err.eq_truncated_of_code status
    exact ⟨f, header ▸ headerVerdict _, truncated, by rw [truncated]; rfl⟩
  · have other := (decBlocks_error blocks).symm.trans (Err.eq_truncated_of_code status)
    cases other
  · exact absurd status (by decide : Done.ok.code ≠ 0x10)

/-- OK needs a whole frame. -/
theorem linkDecode_status_ok {s t : State} (run : linkDecode s = .next t) (status : t.status = 0x00) :
    ∃ n, checkHeader s.inBuf = .ok n := by
  have failed (f : Fail) (h : f.err.code = 0x00) : False := absurd (h ▸ Err.le_code f.err) (by decide)
  rcases linkDecode_cases run with ⟨f, -, rfl⟩ | ⟨n, f, header, -, rfl⟩ | ⟨n, p, header, -, rfl⟩
  · exact (failed f status).elim
  · exact (failed f status).elim
  · exact ⟨n, header⟩

/-- A frame's extent fits an error register. -/
theorem toNat_frameLength_announced (buf : Bytes) :
    (BitVec.ofNat 16 (frameLength (announced buf))).toNat = frameLength (announced buf) := by
  have hlen : (byteAt buf 2).toNat < 256 := (byteAt buf 2).isLt
  rw [BitVec.toNat_ofNat, Nat.mod_eq_of_lt]
  simp only [announced, frameLength, blockCount, ceilDiv, cfg]; omega

/-- What Truncated asks for is more than was given, and no more than any extension that is a whole frame has. -/
theorem HeaderVerdict.truncated_expected {b : Bytes} {f : Fail} (h : HeaderVerdict b (.error f))
    (hf : f.err = .truncated) : b.length < (BitVec.ofNat 16 f.expected).toNat ∧
      ∀ x n, checkHeader (b ++ x) = .ok n → (BitVec.ofNat 16 f.expected).toNat ≤ (b ++ x).length := by
  cases h with
  | short started few => exact ⟨few, fun x n ok => (checkHeader_ok ok).1.whole⟩
  | cut intact length few =>
    rw [toNat_frameLength_announced]
    refine ⟨few, fun x n ok => ?_⟩
    obtain ⟨-, rfl, enough⟩ := checkHeader_ok ok
    rwa [announced_append x intact.whole] at enough
  | badStart0 => cases hf
  | badStart1 => cases hf
  | badCrc => cases hf
  | badLength => cases hf

/-- Settles O28: both Truncated verdicts ask for an extent that every whole frame beginning so has. -/
theorem linkTruncatedIsRetryable : Obligations.LinkTruncatedIsRetryable := by
  intro s t b run status
  obtain ⟨f, verdict, truncated, rfl⟩ := linkDecode_truncated run status
  obtain ⟨more, needed⟩ := verdict.truncated_expected truncated
  refine ⟨rfl, rfl, more, fun x u run' ok => ?_⟩
  obtain ⟨n, header⟩ := linkDecode_status_ok run' ok
  exact needed x n header

end Sys2Proof.Machine

/-! The Transport unit, rule by rule (spec/42_transport.md R116 to R126): the segments of TP.SEG written out one by one, and
every ending of TP.RX. -/

namespace Sys2Proof.Machine

/-! ### TP.RST (R126) -/

/-- Settles O34: the five writes of the unit's reset before `done OK`. -/
theorem tpReset : Obligations.TpReset := fun _ => ⟨.none, rfl⟩

/-! ### Sequence numbers (mod 64) -/

/-- The sequence number of a header is its low six bits (R52). -/
theorem toNat_tphSeq (h : Byte) : (tphSeq h).toNat = h.toNat % 64 := BitVec.toNat_setWidth 6 h

/-- A sequence number counted on by `i`. -/
theorem seq_add_ofNat (q : BitVec 6) (i : Nat) : q + BitVec.ofNat 6 i = BitVec.ofNat 6 (q.toNat + i) := by
  rw [BitVec.ofNat_add, BitVec.ofNat_toNat, BitVec.setWidth_eq]

/-- What RX_EXPECT becomes after a header. -/
theorem tphSeq_add_one (h : Byte) : tphSeq h + 1 = BitVec.ofNat 6 (h.toNat + 1) := by
  rw [BitVec.ofNat_add, BitVec.ofNat_toNat]; rfl

/-! ### TP.RX: no segment, and no segment it can join (R121 to R124) -/

theorem tpReceive_empty {s : State} (hin : s.inBuf = []) :
    tpReceive s = .next (((s.setOut []).setStale false).finish .linkOnly .none) := by
  simp only [tpReceive, hin]

/-- Settles O33: an empty payload is told apart before anything of the reassembly is looked at. -/
theorem tpLinkOnly : Obligations.TpLinkOnly := fun _ hin => ⟨.none, tpReceive_empty hin⟩

section
variable {s : State} {h : Byte} {data : Bytes}

theorem tpReceive_noFir (hin : s.inBuf = h :: data) (hfir : tphFir h = false) (hidle : s.rxActive = false) :
    tpReceive s = .next (((s.setOut []).setStale false).failWith ⟨.noFir, 0, 0, h.toNat⟩ .none) := by
  simp only [tpReceive, hin, hfir, hidle, Bool.false_eq_true, if_false, if_true]

theorem tpReceive_mismatch (hin : s.inBuf = h :: data) (hfir : tphFir h = false) (hact : s.rxActive = true)
    (hseq : tphSeq h ≠ s.rxExpect) :
    tpReceive s = .next ((((s.setOut []).setStale false).setRx false 0).failWith
      ⟨.sequenceMismatch, 0, s.rxExpect.toNat, h.toNat % 64⟩ .none) := by
  simp only [tpReceive, hin, hfir, hact, if_pos hseq, Bool.false_eq_true, Bool.true_eq_false, if_false, toNat_tphSeq]

theorem tpAccept_overflow (hover : cfg.rxBufMax < s.rxLen.toNat + data.length) :
    tpAccept h data s = .next ((s.setRx false 0).failWith
      ⟨.overflow, 0, cfg.rxBufMax, s.rxLen.toNat + data.length⟩ .none) := if_pos hover

end

/-- Settles O32: the three refusals in the order of their tests. -/
theorem tpReceiveRefusals : Obligations.TpReceiveRefusals := by
  intro s h data hin hfir
  refine ⟨fun hidle => ?noFir, fun hact hseq => ?mismatch, fun hact hseq hover => ?overflow⟩
  case noFir => exact tpReceive_noFir hin hfir hidle
  case mismatch => exact tpReceive_mismatch hin hfir hact hseq
  case overflow => exact (tpReceive_next hin hfir hact hseq).trans (tpAccept_overflow hover)

/-! ### TP.RX: a segment kept (R119, R120, R125) -/

/-- What stands in RX_BUF below RX_LEN is the message in progress (R16). -/
theorem HoldsMessage.of_readBytes {s : State} {old : Bytes} (h : s.rxBuf.readBytes 0 s.rxLen.toNat = some old) :
    HoldsMessage s old := by
  have hlen := (Memory.readBytes_eq_some.1 h).1
  exact ⟨hlen.symm, hlen ▸ h⟩

/-- Settles O30: the segment joins the empty message. -/
theorem tpReceiveFirstSegment : Obligations.TpReceiveFirstSegment := by
  intro s h data hin hfir hlen m next
  have joins := tpReceive_first hin hfir
  have hold := holdsMessage_nil true ((s.setOut []).setStale s.rxActive)
  have hcap : ([] : Bytes).length + data.length ≤ cfg.rxBufMax := (Nat.zero_add data.length).le.trans hlen
  have kept : (((s.setOut []).setStale s.rxActive).setRx true 0).keepSegment h data =
      { s with outBuf := [], stale := s.rxActive, rxActive := true, rxLen := BitVec.ofNat 13 data.length,
               rxExpect := next, rxBuf := m } := by
    have length : (0 : BitVec 13).toNat + data.length = data.length := Nat.zero_add _
    rw [State.keepSegment, tphSeq_add_one, State.setRx_rxLen, length]
    rfl
  refine ⟨fun hfin => ⟨.none, ?pending⟩, fun hfin => ⟨.none, ?delivered⟩, fun a => ?memory⟩
  case pending => exact (joins.trans (tpAccept_pending hold hcap hfin)).trans (by rw [kept]; rfl)
  case delivered => exact (joins.trans (tpAccept_fin hold hcap hfin)).trans (by rw [kept]; rfl)
  case memory => simp [m, Memory.read_writeBytes]

/-- Settles O31: the segment joins the message in progress. -/
theorem tpReceiveNextSegment : Obligations.TpReceiveNextSegment := by
  intro s h data old hin hfir hact hseq hread hfits m next
  have joins := tpReceive_next hin hfir hact hseq
  have message := HoldsMessage.of_readBytes hread
  have hold : HoldsMessage ((s.setOut []).setStale false) old := { message with }
  have hcap : old.length + data.length ≤ cfg.rxBufMax := message.rxLen ▸ hfits
  have expect : tphSeq h + 1 = next := (congrArg (· + 1) hseq).trans (seq_add_ofNat s.rxExpect 1)
  have kept : ((s.setOut []).setStale false).keepSegment h data =
      { s with outBuf := [], stale := false, rxLen := BitVec.ofNat 13 (s.rxLen.toNat + data.length),
               rxExpect := next, rxBuf := m } := by
    rw [State.keepSegment, expect]
    rfl
  refine ⟨fun hfin => ⟨.none, ?pending⟩, fun hfin => ⟨.none, ?delivered⟩, fun a => ?memory⟩
  case pending => exact (joins.trans (tpAccept_pending hold hcap hfin)).trans (by rw [kept]; rfl)
  case delivered => exact (joins.trans (tpAccept_fin hold hcap hfin)).trans (by rw [kept]; rfl)
  case memory => exact Memory.read_writeBytes ..

/-! ### TP.SEG (R116) -/

/-- The segment at place `i` of the `k` that `segments` makes: FIN on the last, FIR on the first if at all, the sequence
number counting on, and the run of `seg` bytes at that place. -/
def segmentAt (seg k : Nat) (fir : Bool) (q : BitVec 6) (a : Bytes) (i : Nat) : Bytes :=
  tphByte (decide (i + 1 = k)) (fir && decide (i = 0)) (q + BitVec.ofNat 6 i) :: (a.drop (i * seg)).take seg

section
variable (seg k : Nat) (fir : Bool) (q : BitVec 6) (a : Bytes)

theorem segmentAt_zero : segmentAt seg (k + 1) fir q a 0 = tphByte (decide (k = 0)) fir q :: a.take seg := by
  simp [segmentAt]

theorem segmentAt_succ (i : Nat) :
    segmentAt seg (k + 1) fir q a (i + 1) = segmentAt seg k false (q + 1) (a.drop seg) i := by
  have counted : q + BitVec.ofNat 6 (i + 1) = q + 1 + BitVec.ofNat 6 i := by
    rw [Nat.add_comm i 1, BitVec.ofNat_add, ← BitVec.add_assoc]; rfl
  have place : (i + 1) * seg = seg + i * seg := by rw [Nat.add_mul, Nat.one_mul, Nat.add_comm]
  simp [segmentAt, counted, place]

theorem segments_eq_map : segments seg k fir q a = (List.range k).map (segmentAt seg k fir q a) := by
  induction k generalizing fir q a with
  | zero => rfl
  | succ k ih =>
    rw [segments, ih, List.range_succ_eq_map, List.map_cons, List.map_map, segmentAt_zero]
    exact congrArg _ (List.map_congr_left fun i _ => (segmentAt_succ seg k fir q a i).symm)

/-- A segment of a fragment behind its length byte (R34), its header as a sum (R52). -/
theorem segmentAt_layout (hk : 1 ≤ k) (i : Nat) :
    BitVec.ofNat 8 (segmentAt seg k true q a i).length :: segmentAt seg k true q a i =
      [BitVec.ofNat 8 (1 + ((a.drop (i * seg)).take seg).length),
        BitVec.ofNat 8 ((if i = k - 1 then 128 else 0) + (if i = 0 then 64 else 0) + (q.toNat + i) % 64)] ++
        (a.drop (i * seg)).take seg := by
  have last : i + 1 = k ↔ i = k - 1 := by omega
  rw [Nat.add_comm 1]
  simp only [segmentAt, tphByte_eq_sum, seq_add_ofNat, BitVec.toNat_ofNat, last, Bool.true_and, decide_eq_true_eq]
  rfl

end

/-- With at least one byte to a segment, the number of segments in the terms of R116. -/
theorem segmentCount_eq {n seg : Nat} (h1 : 1 ≤ seg) : segmentCount n seg = max 1 ((n + seg - 1) / seg) := by
  rw [segmentCount, ceilDiv, Nat.add_sub_assoc h1]

/-- Settles O29: the segments of IN laid out one by one, or the size refused. -/
theorem tpSegmentation : Obligations.TpSegmentation := by
  intro seg s a nseg
  refine ⟨fun hbad => if_pos hbad, fun h1 hmax => ?cut⟩
  case cut =>
    have count : segmentCount s.inBuf.length seg.toNat = nseg := segmentCount_eq h1
    have sent := tpSegment_ok (s := s) h1 hmax
    rw [count, seq_add_ofNat, segmentLayout, segments_eq_map, List.flatMap_map,
      funext (segmentAt_layout _ nseg _ _ (le_max_left ..))] at sent
    exact sent

end Sys2Proof.Machine

/-! The encoders of the Application unit in the terms of R141 to R144 (spec/43_application.md): the checks of request blocks and
their bytes, and how each of the four ends. -/

namespace Sys2Proof.Machine

/-! ### Request blocks (R138, R141) -/

section
variable {b : ReqBlock} {j : Nat}

/-- The only check of a request block is of its range. -/
theorem rangeFail_accepted (h : requestAccepted b) : rangeFail j b.form = none := by
  obtain ⟨g, v, form⟩ := b
  cases form with
  | index idx => rfl
  | range start stop => exact if_neg (Nat.not_lt.2 (h start stop rfl))
  | all => rfl

/-- Blocks that pass hand the check on to the blocks after them. -/
theorem checkReqBlocks_append {pre rest : List ReqBlock} (h : ∀ c ∈ pre, requestAccepted c) :
    checkReqBlocks j (pre ++ rest) = checkReqBlocks (j + pre.length) rest := by
  induction pre generalizing j with
  | nil => rfl
  | cons c pre ih =>
    obtain ⟨hc, hpre⟩ := List.forall_mem_cons.1 h
    rw [List.cons_append, checkReqBlocks, rangeFail_accepted hc]
    simp only
    rw [ih hpre, List.length_cons, Nat.add_right_comm, Nat.add_assoc]

theorem checkReqBlocks_accepted {blocks : List ReqBlock} (h : ∀ c ∈ blocks, requestAccepted c) :
    checkReqBlocks j blocks = none := by
  have all := checkReqBlocks_append (j := j) (rest := []) h
  rwa [List.append_nil] at all

/-- A request block is its header and, of an INDEX form, the indices. -/
theorem encReqBlock_eq (b : ReqBlock) : encReqBlock b = requestBytes b := by
  obtain ⟨g, v, form⟩ := b
  cases form with
  | index idx => rfl
  | range start stop =>
    simp only [encReqBlock, encHeader, formQualifier, formRange, requestBytes]
    split <;> rfl
  | all => rfl

end

/-- An instruction whose work is the encoding of request blocks behind a header does what R141 says. -/
theorem encodesRequest_of_exec {i : Instr} {head : Bytes} {blocks : List ReqBlock}
    (h : ∀ s, exec i s = emitFragment (checkReqBlocks 0 blocks) (head ++ blocks.flatMap encReqBlock) s) :
    encodesRequest i head blocks := by
  refine fun s => ⟨?backwards, fun hall => ⟨(emitted (head ++ blocks.flatMap requestBytes) s).results, ?emitted⟩⟩
  case backwards =>
    rintro pre b post start stop rfl hpre hform hlt
    have hfail : rangeFail pre.length b.form = some ⟨.encBadForm, pre.length, start.toNat, stop.toNat⟩ := by
      rw [hform]; exact if_pos hlt
    rw [h, checkReqBlocks_append hpre, Nat.zero_add, checkReqBlocks, hfail]
    rfl
  case emitted => rw [h, checkReqBlocks_accepted hall, emitFragment_none, funext encReqBlock_eq]

/-! ### The four encoders, as commands and as the items they build (R141 to R144) -/

section
variable {i : Instr}

/-- What APP.ENC.READ does, under any of its names. -/
theorem encodesRequest_of_appRead {a : ReadArgs} (h : ∀ s, exec i s = appRead a s) :
    encodesRequest i [controlByte true true a.con false a.seq, 0x01] a.blocks := by
  rw [← requestApc_eq_controlByte]
  exact encodesRequest_of_exec h

/-- What APP.ENC.WRITE does, under any of its names. -/
theorem encodesBlocks_of_appWrite {func : Byte} {a : WriteArgs} (h : ∀ s, exec i s = appWrite func a s) :
    encodesBlocks i [controlByte true true a.con false a.seq, func] a.blocks := by
  rw [← requestApc_eq_controlByte]
  exact encodesBlocks_of_exec h

/-- What APP.ENC.RESP does, under any of its names. -/
theorem encodesBlocks_of_appRespond {a : RespArgs} (h : ∀ s, exec i s = appRespond a s) :
    encodesBlocks i [controlByte a.ctrl.fir a.ctrl.fin a.ctrl.con a.ctrl.uns a.ctrl.seq, 0x81, a.iin1, a.iin2]
      a.blocks := by
  rw [← apcByte_eq_controlByte]
  exact encodesBlocks_of_exec h

/-- What APP.ENC.CONFIRM does, under any of its names: the two bytes of R143. -/
theorem endsIn_of_appConfirm {a : ConfirmArgs} {s : State} (h : exec i s = appConfirm a s) :
    endsIn i s ({ s with outBuf := [controlByte true true false a.uns a.seq, 0x00] }.endedOk .none) := by
  rw [← confirmApc_eq_controlByte]
  exact ⟨.none, h⟩

end

/-- Settles O40: the header of a request and the blocks, by their checks. -/
theorem appReadEncodes : Obligations.AppReadEncodes :=
  fun _ => encodesRequest_of_appRead fun _ => rfl

/-- Settles O41: both encoders end by the same checks and differ in the header alone. -/
theorem appWriteAndRespEncode : Obligations.AppWriteAndRespEncode :=
  ⟨fun _ _ => encodesBlocks_of_appWrite fun _ => rfl, fun _ => encodesBlocks_of_appRespond fun _ => rfl⟩

/-- Settles O42: the two bytes are written in every state. -/
theorem appConfirmEncodes : Obligations.AppConfirmEncodes :=
  fun _ _ => endsIn_of_appConfirm rfl

end Sys2Proof.Machine

/-! The bytes of points and of data areas (spec/43_application.md R138, R139; spec/30_encoding.md R59 to R62): what an
encoder writes, and what a decoder reads from it. -/

namespace Sys2Proof.Machine

/-! ### What the rows of the object table have in common (R60) -/

section
variable {g v : Byte} {d : Descriptor}

/-- What holds of every row's descriptor holds of a descriptor that was looked up. -/
theorem desc_of_rows {P : Descriptor → Prop} (rows : ∀ r ∈ cfg.objTable, P r.desc) (h : lookupObj g v = some d) :
    P d := by
  obtain ⟨r, hr, rfl⟩ := Option.map_eq_some_iff.1 h
  exact rows r (List.mem_of_find?_eq_some hr)

theorem bigEndian_of_lookupObj (h : lookupObj g v = some d) : d.bigEndian = false :=
  desc_of_rows (P := fun d => d.bigEndian = false) bigEndian_of_mem h

/-- No value of the table fills more than the 64 bits of `raw`. -/
theorem vbytes_le_eight (h : lookupObj g v = some d) : d.vbytes ≤ 8 :=
  desc_of_rows (P := fun d => d.vbytes ≤ 8) (by decide) h

/-- An integer of the table has 1 to 4 bytes. -/
theorem vbytes_of_int (h : lookupObj g v = some d) (hk : d.kind = .int) : 1 ≤ d.vbytes ∧ d.vbytes ≤ 4 :=
  desc_of_rows (P := fun d => d.kind = .int → 1 ≤ d.vbytes ∧ d.vbytes ≤ 4) (by decide) h hk

/-- The layouts of a point: the packed bits, the byte that is flags and state at once, and a value alone or with its flag
byte on either side (R59). -/
inductive Layout (d : Descriptor) : Prop where
  | packed (kind : d.kind = .packed) (flags : d.flagPos = .none)
  | boolflag (kind : d.kind = .boolflag) (flags : d.flagPos = .inByte)
  | value (kind : d.kind = .int ∨ d.kind = .float) (flags : d.flagPos = .none)
  | flagsValue (kind : d.kind = .int ∨ d.kind = .float) (flags : d.flagPos = .before)
  | valueFlags (kind : d.kind = .int ∨ d.kind = .float) (flags : d.flagPos = .after)

/-- Every row has one of the layouts: no number has its flags in the byte, and no binary point has them anywhere else. -/
theorem layout_of_lookupObj (h : lookupObj g v = some d) : Layout d := by
  have rows : d.kind = .packed ∧ d.flagPos = .none ∨ d.kind = .boolflag ∧ d.flagPos = .inByte ∨
      (d.kind = .int ∨ d.kind = .float) ∧ (d.flagPos = .none ∨ d.flagPos = .before ∨ d.flagPos = .after) :=
    desc_of_rows (P := fun d => d.kind = .packed ∧ d.flagPos = .none ∨ d.kind = .boolflag ∧ d.flagPos = .inByte ∨
      (d.kind = .int ∨ d.kind = .float) ∧ (d.flagPos = .none ∨ d.flagPos = .before ∨ d.flagPos = .after)) (by decide) h
  rcases rows with ⟨hk, hf⟩ | ⟨hk, hf⟩ | ⟨hk, hf | hf | hf⟩
  · exact .packed hk hf
  · exact .boolflag hk hf
  · exact .value hk hf
  · exact .flagsValue hk hf
  · exact .valueFlags hk hf

end

/-! ### Value bytes (R7, R139, R150) -/

/-- The bytes of a value are its 8-bit groups, lowest first. -/
theorem leN_eq_map (n : Nat) (v : U64) : leN n v = (List.range n).map (fun k => v.extractLsb' (8 * k) 8) := by
  induction n generalizing v with
  | zero => rfl
  | succ n ih =>
    rw [leN, ih, List.range_succ_eq_map, List.map_cons, List.map_map]
    refine congrArg _ (List.map_congr_left fun k _ => ?_)
    ext i hi
    simp [Nat.mul_add, Nat.add_comm, Nat.add_left_comm]

/-- Read back, `n` bytes of a value give its low `8 * n` bits. -/
theorem leValue_leN (n : Nat) (v : U64) : leValue (leN n v) = v.toNat % 2 ^ (8 * n) := by
  induction n generalizing v with
  | zero => simp [leN, leValue, Nat.mod_one]
  | succ n ih =>
    have low : (v.extractLsb' 0 8).toNat = v.toNat % 2 ^ 8 := by simp
    have high : (v >>> 8).toNat = v.toNat / 2 ^ 8 := by simp [Nat.shiftRight_eq_div_pow]
    rw [leN, leValue, ih, low, high, Nat.mul_succ, Nat.add_comm (8 * n), Nat.pow_add, Nat.mod_mul]

theorem leValue_lt (bs : Bytes) : leValue bs < 2 ^ (8 * bs.length) := by
  induction bs with
  | nil => exact Nat.one_pos
  | cons b bs ih =>
    have hb : b.toNat < 2 ^ 8 := b.isLt
    rw [leValue, List.length_cons, Nat.mul_succ, Nat.pow_add]
    omega

/-- Up to eight bytes are the bytes of the value they hold. -/
theorem leN_leValue {bs : Bytes} (h : bs.length ≤ 8) : leN bs.length (BitVec.ofNat 64 (leValue bs)) = bs := by
  induction bs with
  | nil => rfl
  | cons b bs ih =>
    have hb : b.toNat < 2 ^ 8 := b.isLt
    rw [List.length_cons] at h
    have hrest : leValue bs < 2 ^ 56 :=
      (leValue_lt bs).trans_le (Nat.pow_le_pow_right (by decide) (by omega))
    have low : (BitVec.ofNat 64 (b.toNat + 256 * leValue bs)).extractLsb' 0 8 = b := by
      apply BitVec.eq_of_toNat_eq
      simp only [BitVec.extractLsb'_toNat, BitVec.toNat_ofNat, Nat.shiftRight_zero]
      omega
    have high : BitVec.ofNat 64 (b.toNat + 256 * leValue bs) >>> 8 = BitVec.ofNat 64 (leValue bs) := by
      apply BitVec.eq_of_toNat_eq
      simp only [BitVec.toNat_ushiftRight, BitVec.toNat_ofNat, Nat.shiftRight_eq_div_pow]
      omega
    rw [leValue, List.length_cons, leN, low, high, ih (by omega)]

/-- The bytes of a 16-bit value, as the unsigned number they hold. -/
theorem leValue_le16 (v : U16) : leValue (le16 v) = v.toNat := by
  have hv : v.toNat < 2 ^ 16 := v.isLt
  simp only [le16, leValue, BitVec.extractLsb'_toNat, Nat.shiftRight_eq_div_pow]
  omega

/-! ### Points (R139) -/

section
variable {g v : Byte} {d : Descriptor} {e : PointEntry}

theorem valueBytes_eq_leN (hd : lookupObj g v = some d) (raw : U64) : valueBytes d raw = leN d.vbytes raw := by
  simp [valueBytes, bigEndian_of_lookupObj hd]

theorem encPoint_boolflag (hk : d.kind = .boolflag) : encPoint d e = [boolflagByte e.flags (e.raw.getLsbD 0)] := by
  simp [encPoint, hk]

theorem encPoint_value (hd : lookupObj g v = some d) (hk : d.kind = .int ∨ d.kind = .float) (hf : d.flagPos = .none) :
    encPoint d e = leN d.vbytes e.raw := by
  rcases hk with hk | hk <;> simp [encPoint, hk, hf, valueBytes_eq_leN hd]

theorem encPoint_flagsValue (hd : lookupObj g v = some d) (hk : d.kind = .int ∨ d.kind = .float)
    (hf : d.flagPos = .before) : encPoint d e = e.flags :: leN d.vbytes e.raw := by
  rcases hk with hk | hk <;> simp [encPoint, hk, hf, valueBytes_eq_leN hd]

theorem encPoint_valueFlags (hd : lookupObj g v = some d) (hk : d.kind = .int ∨ d.kind = .float)
    (hf : d.flagPos = .after) : encPoint d e = leN d.vbytes e.raw ++ [e.flags] := by
  rcases hk with hk | hk <;> simp [encPoint, hk, hf, valueBytes_eq_leN hd]

theorem pointSize_boolflag (hk : d.kind = .boolflag) : pointSize d = 1 := by simp [pointSize, hk]

theorem pointSize_value (hk : d.kind = .int ∨ d.kind = .float) :
    pointSize d = d.vbytes + if d.flagPos = .none then 0 else 1 := by
  rcases hk with hk | hk <;> simp [pointSize, hk]

/-- A point has as many bytes as its object's size says (R59). -/
theorem encPoint_length (hd : lookupObj g v = some d) (e : PointEntry) : (encPoint d e).length = pointSize d := by
  cases layout_of_lookupObj hd with
  | packed hk hf => simp [encPoint, pointSize, hk]
  | boolflag hk hf => simp [encPoint_boolflag hk, pointSize_boolflag hk]
  | value hk hf => simp [encPoint_value hd hk hf, pointSize_value hk, hf]
  | flagsValue hk hf => simp [encPoint_flagsValue hd hk hf, pointSize_value hk, hf]
  | valueFlags hk hf => simp [encPoint_valueFlags hd hk hf, pointSize_value hk, hf]

/-- A BOOLFLAG byte is its flags with the state in bit 7 (R61). -/
theorem boolflagByte_eq_sum (flags : Byte) (state : Bool) :
    boolflagByte flags state = BitVec.ofNat 8 (flags.toNat % 128 + if state then 128 else 0) := by
  revert flags state; decide

theorem boolflagByte_self (b : Byte) : boolflagByte b (b.getLsbD 7) = b := by
  revert b; decide

/-- Every byte string of an object's point size is a point of the object. -/
theorem encPoint_surjective (hd : lookupObj g v = some d) (hk : d.kind ≠ .packed) {bs : Bytes}
    (hlen : bs.length = pointSize d) : ∃ e, encPoint d e = bs := by
  have bytes_back {vs : Bytes} (hvs : vs.length = d.vbytes) : leN d.vbytes (BitVec.ofNat 64 (leValue vs)) = vs := by
    rw [← hvs]; exact leN_leValue (hvs ▸ vbytes_le_eight hd)
  cases layout_of_lookupObj hd with
  | packed hp hf => exact absurd hp hk
  | boolflag hb hf =>
    rw [pointSize_boolflag hb] at hlen
    obtain ⟨b, rfl⟩ := List.length_eq_one_iff.1 hlen
    have state : ((BitVec.ofBool (b.getLsbD 7)).setWidth 64).getLsbD 0 = b.getLsbD 7 := by simp
    exact ⟨⟨(BitVec.ofBool (b.getLsbD 7)).setWidth 64, b⟩, by rw [encPoint_boolflag hb, state, boolflagByte_self]⟩
  | value hn hf =>
    rw [pointSize_value hn, if_pos hf] at hlen
    exact ⟨⟨BitVec.ofNat 64 (leValue bs), 0⟩, by rw [encPoint_value hd hn hf, bytes_back hlen]⟩
  | flagsValue hn hf =>
    rw [pointSize_value hn, if_neg (by simp [hf])] at hlen
    obtain ⟨b, vs, rfl⟩ := List.exists_cons_of_length_eq_add_one hlen
    refine ⟨⟨BitVec.ofNat 64 (leValue vs), b⟩, ?_⟩
    rw [encPoint_flagsValue hd hn hf, bytes_back (Nat.succ.inj hlen)]
  | valueFlags hn hf =>
    rw [pointSize_value hn, if_neg (by simp [hf])] at hlen
    rcases List.eq_nil_or_concat bs with rfl | ⟨vs, b, rfl⟩
    · cases hlen
    refine ⟨⟨BitVec.ofNat 64 (leValue vs), b⟩, ?_⟩
    rw [encPoint_valueFlags hd hn hf, bytes_back (by simpa using hlen), List.concat_eq_append]

end

/-! ### Packed bits (R62) -/

theorem packByte_getLsbD (bits : List Bool) {k : Nat} (hk : k < 8) :
    (packByte bits).getLsbD k = bits[k]?.getD false := by
  induction bits generalizing k with
  | nil => simp [packByte]
  | cons b bits ih =>
    cases k with
    | zero => simp [packByte, bit8]
    | succ k =>
      have high : ¬k + 1 < 1 := by omega
      rw [packByte, BitVec.getLsbD_or, BitVec.getLsbD_shiftLeft, Nat.add_sub_cancel, ih (Nat.lt_of_succ_lt hk)]
      simp [bit8, hk, high]

/-- The bytes of packed bits, each from the eight bits it holds. -/
theorem packBits_eq_map (nb : Nat) (bits : List Bool) :
    packBits nb bits = (List.range nb).map (fun j => packByte ((bits.drop (8 * j)).take 8)) := by
  induction nb generalizing bits with
  | zero => rfl
  | succ nb ih =>
    rw [packBits, ih, List.range_succ_eq_map, List.map_cons, List.map_map]
    simp [Function.comp_def, List.drop_drop, Nat.mul_add, Nat.add_comm]

/-- Bit `k` of packed byte `j` is bit `8 * j + k`, 0 past the last. -/
theorem packed_bit (bits : List Bool) (j : Nat) {k : Nat} (hk : k < 8) :
    (packByte ((bits.drop (8 * j)).take 8)).getLsbD k = bits[8 * j + k]?.getD false := by
  rw [packByte_getLsbD _ hk, List.getElem?_take_of_lt hk, List.getElem?_drop]

theorem byte_eq_sum (b : Byte) :
    b = BitVec.ofNat 8 ((List.range 8).map (fun k => if b.getLsbD k then 2 ^ k else 0)).sum := by
  revert b; decide

/-- A packed byte as the sum of its bits. -/
theorem packByte_eq_sum (bits : List Bool) (j : Nat) : packByte ((bits.drop (8 * j)).take 8) =
    BitVec.ofNat 8 ((List.range 8).map (fun k => if bits[8 * j + k]?.getD false then 2 ^ k else 0)).sum := by
  rw [byte_eq_sum (packByte _)]
  congr 2
  refine List.map_congr_left fun k hk => ?_
  rw [packed_bit bits j (List.mem_range.1 hk)]

/-! ### Data blocks (R138, R139) -/

/-- The header of a range: one-byte bounds where they suffice. -/
theorem encHeader_range (g v : Byte) (start stop : U16) : encHeader g v (.range start stop) =
    if stop.toNat ≤ 255 then [g, v, 0x00, start.extractLsb' 0 8, stop.extractLsb' 0 8]
    else [g, v, 0x01] ++ le16 start ++ le16 stop := by
  simp only [encHeader, formQualifier, formRange]
  split <;> rfl

section
variable {g v : Byte} {d : Descriptor} (hd : lookupObj g v = some d)
include hd

theorem encDataBlock_index (idx : List U16) (points : List PointEntry) (hk : d.kind ≠ .packed) :
    encDataBlock ⟨g, v, .index idx, points⟩ = [g, v, 0x28] ++ le16 (BitVec.ofNat 16 idx.length) ++
      (idx.zip points).flatMap (fun x => le16 x.1 ++ encPoint d x.2) := by
  simp only [encDataBlock, hd, encData]
  rfl

theorem encDataBlock_range (start stop : U16) (points : List PointEntry) (hk : d.kind ≠ .packed) :
    encDataBlock ⟨g, v, .range start stop, points⟩ =
      encHeader g v (.range start stop) ++ points.flatMap (encPoint d) := by
  simp only [encDataBlock, hd, encData]

theorem encDataBlock_packed (start stop : U16) (points : List PointEntry) (hk : d.kind = .packed) :
    encDataBlock ⟨g, v, .range start stop, points⟩ = encHeader g v (.range start stop) ++
      packBits ((stop.toNat - start.toNat + 1 + 7) / 8) (points.map (fun e => e.raw.getLsbD 0)) := by
  simp only [encDataBlock, hd, encData, hk, formCount, ceilDiv]

end

/-- Settles O43: points by layout, blocks by form, packed bytes bit by bit. -/
theorem dataBlockBytes : Obligations.DataBlockBytes := by
  intro g v d hd
  refine ⟨fun e => ⟨fun hk => ?boolflag, fun hk => ⟨fun hf => ?value, fun hf => ?flagsValue, fun hf => ?valueFlags⟩⟩,
    fun idx points hk _ => encDataBlock_index hd idx points hk,
    fun start stop points _ hcount => ⟨fun hk => ?range, fun hk => ?packed⟩⟩
  case boolflag => rw [encPoint_boolflag hk, boolflagByte_eq_sum]
  case value => rw [encPoint_value hd hk hf, leN_eq_map]
  case flagsValue => rw [encPoint_flagsValue hd hk hf, leN_eq_map]
  case valueFlags => rw [encPoint_valueFlags hd hk hf, leN_eq_map]
  case range => rw [encDataBlock_range hd start stop points hk, encHeader_range]
  case packed =>
    rw [encDataBlock_packed hd start stop points hk, encHeader_range, ← hcount, packBits_eq_map]
    simp only [packByte_eq_sum, List.getElem?_map]

end Sys2Proof.Machine

/-! APP.DEC on complete object blocks (spec/43_application.md R145 to R150). Everything the decoder reads at its cursor is
said of the bytes that stand there, `f.drop pos`, so that no lemma speaks of the bytes before them. -/

namespace Sys2Proof.Machine

/-! ### The bytes at the cursor -/

section
variable {f t : Bytes} {pos : Nat} (h : f.drop pos = t)
include h

theorem left_of_drop : f.length - pos = t.length := by rw [← h, List.length_drop]

theorem pos_lt_of_drop (ht : t ≠ []) : pos < f.length := by
  have := List.length_pos_iff.2 ht
  have := left_of_drop h
  omega

theorem byteAt_of_drop (i : Nat) : byteAt f (pos + i) = byteAt t i := by
  simp [byteAt, ← h]

theorem slice_of_drop (i n : Nat) : slice f (pos + i) n = slice t i n := by
  rw [slice, slice, ← h, List.drop_drop]

/-- The cursor moved over a first part stands at what follows it. -/
theorem drop_advance {a b : Bytes} (ht : t = a ++ b) : f.drop (pos + a.length) = b := by
  rw [← List.drop_drop, h, ht, List.drop_left]

/-- A little-endian number that stands at the cursor is read there. -/
theorem rdLe_of_drop {a b : Bytes} (ht : t = a ++ b) : rdLe f pos a.length = leValue a := by
  rw [rdLe, ← Nat.add_zero pos, slice_of_drop h, slice, List.drop_zero, ht, List.take_left]

end

theorem rdLe_le16 {f rest : Bytes} {pos : Nat} {v : U16} (h : f.drop pos = le16 v ++ rest) : rdLe f pos 2 = v.toNat :=
  (rdLe_of_drop h rfl).trans (leValue_le16 v)

/-! ### Points (R150, R151) -/

/-- The bits of a number fit its value bytes. -/
theorem entryRaw_lt {d : Descriptor} (e : PointEntry) (hk : d.kind = .int ∨ d.kind = .float) : entryRaw d e < 2 ^ (8 * d.vbytes) := by
  rcases hk with hk | hk <;> simp only [entryRaw, hk] <;> exact Nat.mod_lt _ (Nat.two_pow_pos _)

section
variable {g v : Byte} {d : Descriptor} (hd : lookupObj g v = some d) {f rest : Bytes} {pos : Nat}
include hd

/-- The value at the cursor is the low bits of what was encoded. -/
theorem readValue_leN {raw : U64} (h : f.drop pos = leN d.vbytes raw ++ rest) :
    readValue d f pos = raw.toNat % 2 ^ (8 * d.vbytes) := by
  have value := rdLe_of_drop h rfl
  rw [leN_length, leValue_leN] at value
  simpa [readValue, bigEndian_of_lookupObj hd] using value

/-- The decoder's number of a point in the terms of the statements: an integer's bits fit its bytes. -/
theorem pointValue_eq_entryValue {raw : Nat} (hraw : d.kind = .int → raw < 2 ^ (8 * d.vbytes)) :
    pointValue d raw = entryValue d raw := by
  cases hk : d.kind with
  | packed | boolflag | float => simp [pointValue, entryValue, hk]
  | int =>
    cases hs : d.signed with
    | false => simp [pointValue, entryValue, hk, hs]
    | true =>
      have hfit := hraw hk
      obtain ⟨hpos, -⟩ := vbytes_of_int hd hk
      have half : 2 ^ (8 * d.vbytes) = 2 * 2 ^ (8 * d.vbytes - 1) := by
        rw [← Nat.pow_succ']; congr 1; omega
      simp only [pointValue, entryValue, hk, hs, BitVec.toInt_eq_toNat_cond, BitVec.toNat_ofNat,
        Nat.mod_eq_of_lt hfit]
      rcases Nat.lt_or_ge raw (2 ^ (8 * d.vbytes - 1)) with hlow | hhigh
      · simp [show 2 * raw < 2 ^ (8 * d.vbytes) by omega, Nat.not_le.2 hlow]
      · simp [show ¬2 * raw < 2 ^ (8 * d.vbytes) by omega, hhigh]

/-- The record of an entry, as the decoder builds it from the entry's bits and flag byte. -/
theorem entryRecord_eq_pointRecord (x : U16) (e : PointEntry) :
    entryRecord d g v x e = pointRecord d g v x (entryRaw d e) (entryFlags d e) := by
  have number := pointValue_eq_entryValue hd (raw := entryRaw d e) (fun hk => entryRaw_lt e (.inl hk))
  rw [pointRecord, number]
  rfl

end

/-! ### One point and one packed data area (R149, R150) -/

theorem boolflagByte_eq_or (flags : Byte) (state : Bool) :
    boolflagByte flags state = (flags &&& 0x7F) ||| (if state then 0x80 else 0x00) := by
  cases state <;> rfl

theorem boolflagState_boolflagByte (flags : Byte) (state : Bool) : boolflagState (boolflagByte flags state) = state := by
  revert flags state; decide

section
variable {g v : Byte} {d : Descriptor} (hd : lookupObj g v = some d) {f rest : Bytes} {pos : Nat}
include hd

/-- The decoder gives back the record of the point that stands at the cursor. -/
theorem decPoint_encPoint {e : PointEntry} (hk : d.kind ≠ .packed) (h : f.drop pos = encPoint d e ++ rest) (x : U16) :
    decPoint d g v x f pos = entryRecord d g v x e := by
  rw [entryRecord_eq_pointRecord hd]
  cases layout_of_lookupObj hd with
  | packed hp hf => exact absurd hp hk
  | boolflag hb hf =>
    rw [encPoint_boolflag hb] at h
    have byte : byteAt f pos = boolflagByte e.flags (e.raw.getLsbD 0) := byteAt_of_drop h 0
    simp only [decPoint, entryRaw, entryFlags, hb, byte, boolflagState_boolflagByte, ← boolflagByte_eq_or]
  | value hn hf =>
    rw [encPoint_value hd hn hf] at h
    have number := readValue_leN hd h
    rcases hn with hn | hn <;> simp [decPoint, entryRaw, entryFlags, hn, hf, number]
  | flagsValue hn hf =>
    rw [encPoint_flagsValue hd hn hf] at h
    have byte : byteAt f pos = e.flags := byteAt_of_drop h 0
    have number := readValue_leN hd (drop_advance h (a := [e.flags]) rfl)
    rw [List.length_singleton] at number
    rcases hn with hn | hn <;> simp [decPoint, entryRaw, entryFlags, hn, hf, byte, number]
  | valueFlags hn hf =>
    rw [encPoint_valueFlags hd hn hf, List.append_assoc] at h
    have number := readValue_leN hd h
    have after := drop_advance h rfl
    rw [leN_length] at after
    have byte : byteAt f (pos + d.vbytes) = e.flags := byteAt_of_drop after 0
    rcases hn with hn | hn <;> simp [decPoint, entryRaw, entryFlags, hn, hf, byte, number]

/-- The record of a packed point is that of an entry whose state is its bit. -/
theorem decPacked_eq_entryRecord (hk : d.kind = .packed) (start i : Nat) :
    decPacked d g v start f pos i = entryRecord d g v (BitVec.ofNat 16 (start + i))
      ⟨if (byteAt f (pos + i / 8)).getLsbD (i % 8) then 1 else 0, 0⟩ := by
  rw [entryRecord_eq_pointRecord hd, decPacked]
  cases (byteAt f (pos + i / 8)).getLsbD (i % 8) <;> simp [entryRaw, entryFlags, hk]

/-- A packed data area that stands complete at the cursor. -/
theorem decData_packed {data : Bytes} (hk : d.kind = .packed) (h : f.drop pos = data ++ rest) {start count : Nat}
    (hlen : data.length = (count + 7) / 8) :
    decData d g v ⟨start, count, 0⟩ f pos = .ok (packedRecords d g v start count data, pos + data.length) := by
  have left := left_of_drop h
  have enough : ¬f.length - pos < ceilDiv count 8 := by
    rw [left, List.length_append, ceilDiv]; omega
  have records : (List.range count).map (decPacked d g v start f pos) = packedRecords d g v start count data := by
    refine List.map_congr_left fun i hi => ?_
    have hi := List.mem_range.1 hi
    have inside : byteAt (data ++ rest) (i / 8) = byteAt data (i / 8) := byteAt_append_left rest (by omega)
    rw [decPacked_eq_entryRecord hd hk, byteAt_of_drop h, inside]
  simp only [decData, if_pos hk, if_neg enough, records, hlen]
  rfl

end

end Sys2Proof.Machine

/-! APP.DEC block by block (spec/43_application.md R146 to R149): the range field, the points of a block, one object block,
the object loop, and the whole fragment. -/

namespace Sys2Proof.Machine

/-! ### The points of a block that is not PACKED (R149) -/

section
variable {g v : Byte} {d : Descriptor} (hd : lookupObj g v = some d) (hk : d.kind ≠ .packed) {f rest : Bytes}
include hd hk

/-- One point: its index bytes and its own bytes stand at the cursor, and the points after it are read behind them. -/
theorem decPoints_cons {r : RangeField} {e : PointEntry} {idx : Bytes} {x : U16} {k i pos pos' : Nat} {ps : List PointRec}
    (h : f.drop pos = (idx ++ encPoint d e) ++ rest) (hidx : idx.length = r.idxBytes)
    (hx : BitVec.ofNat 16 (if r.idxBytes = 2 then rdLe f pos 2 else r.start + i) = x)
    (hrest : decPoints d g v r f k (i + 1) (pos + (idx ++ encPoint d e).length) = .ok (ps, pos')) :
    decPoints d g v r f (k + 1) i pos = .ok (entryRecord d g v x e :: ps, pos') := by
  have size : (idx ++ encPoint d e).length = r.idxBytes + pointSize d := by
    rw [List.length_append, hidx, encPoint_length hd]
  have enough : ¬f.length - pos < r.idxBytes + pointSize d := by
    rw [left_of_drop h, List.length_append, size]; omega
  have point : f.drop (pos + r.idxBytes) = encPoint d e ++ rest := by
    rw [← hidx]; exact drop_advance h (List.append_assoc ..)
  rw [size] at hrest
  simp only [decPoints, if_neg enough, hx, hrest, decPoint_encPoint hd hk point]

/-- The points of a range, from the `i`-th on, with rising indices. -/
theorem decPoints_range {start count : Nat} {points : List PointEntry} {i pos : Nat}
    (h : f.drop pos = points.flatMap (encPoint d) ++ rest) :
    decPoints d g v ⟨start, count, 0⟩ f points.length i pos =
      .ok (List.zipWith (entryRecord d g v) ((List.range' i points.length).map fun k => BitVec.ofNat 16 (start + k)) points,
        pos + (points.flatMap (encPoint d)).length) := by
  induction points generalizing i pos with
  | nil => rfl
  | cons e points ih =>
    rw [List.flatMap_cons, List.append_assoc] at h
    have rest_read := ih (i := i + 1) (drop_advance h rfl)
    rw [List.flatMap_cons, List.length_append, ← Nat.add_assoc]
    exact decPoints_cons hd hk (idx := []) h rfl rfl rest_read

/-- The points of a list of indices, each behind its index. -/
theorem decPoints_index {start count : Nat} {idx : List U16} {points : List PointEntry} (hlen : points.length = idx.length)
    {i pos : Nat} (h : f.drop pos = (idx.zip points).flatMap (fun x => le16 x.1 ++ encPoint d x.2) ++ rest) :
    decPoints d g v ⟨start, count, 2⟩ f points.length i pos =
      .ok (List.zipWith (entryRecord d g v) idx points,
        pos + ((idx.zip points).flatMap (fun x => le16 x.1 ++ encPoint d x.2)).length) := by
  induction points generalizing idx i pos with
  | nil =>
    obtain rfl := List.length_eq_zero_iff.1 hlen.symm
    rfl
  | cons e points ih =>
    obtain ⟨x, idx, rfl⟩ := List.exists_cons_of_length_eq_add_one hlen.symm
    rw [List.zip_cons_cons, List.flatMap_cons, List.append_assoc] at h
    have rest_read := ih (Nat.succ.inj hlen) (i := i + 1) (drop_advance h rfl)
    have index : BitVec.ofNat 16 (rdLe f pos 2) = x := by
      rw [List.append_assoc] at h
      rw [rdLe_le16 h, BitVec.ofNat_toNat, BitVec.setWidth_eq]
    rw [List.zip_cons_cons, List.flatMap_cons, List.length_append, ← Nat.add_assoc]
    exact decPoints_cons hd hk h rfl index rest_read

end

/-! ### The range field (R148) -/

/-- A qualifier byte of a range and the bytes of its two bounds, whichever way the range runs (R57). -/
inductive BoundsField (start stop : U16) : Byte → Bytes → Prop where
  | range8 : start.toNat ≤ 255 → stop.toNat ≤ 255 →
      BoundsField start stop 0x00 [start.extractLsb' 0 8, stop.extractLsb' 0 8]
  | range16 : BoundsField start stop 0x01 (le16 start ++ le16 stop)

theorem boundsField_of_rangeReads {start stop : U16} {field : Bytes} (h : RangeReads start stop field) :
    start.toNat ≤ stop.toNat ∧ ∃ q bounds, field = q :: bounds ∧ BoundsField start stop q bounds := by
  obtain ⟨hle, ⟨h8, rfl⟩ | rfl⟩ := h
  · exact ⟨hle, _, _, rfl, .range8 (hle.trans h8) h8⟩
  · exact ⟨hle, _, _, rfl, .range16⟩

/-- The low byte of a value that fits it. -/
theorem low_byte_toNat {x : U16} (h : x.toNat ≤ 255) : (x.extractLsb' 0 8).toNat = x.toNat := by
  simp only [BitVec.extractLsb'_toNat, Nat.shiftRight_zero]; omega

section
variable {f data : Bytes} {pos : Nat}

/-- A range field that stands at the cursor: its bounds, refused where they run backwards. -/
theorem decRange_bounds {start stop : U16} {q : Byte} {bounds : Bytes} (hb : BoundsField start stop q bounds)
    (h : f.drop pos = bounds ++ data) : decRange q f pos =
      if stop.toNat < start.toNat then .error ⟨.badQualifier, pos, start.toNat, stop.toNat⟩
      else .ok (⟨start.toNat, stop.toNat - start.toNat + 1, 0⟩, pos + bounds.length) := by
  have left := left_of_drop h
  cases hb with
  | range8 hstart hstop =>
    have first : byteAt f pos = start.extractLsb' 0 8 := byteAt_of_drop h 0
    have second : byteAt f (pos + 1) = stop.extractLsb' 0 8 := byteAt_of_drop h 1
    have enough : ¬f.length - pos < 2 := by rw [left]; simp
    refine (if_neg enough).trans ?_
    rw [first, second, low_byte_toNat hstart, low_byte_toNat hstop, startStop]
    split_ifs <;> rfl
  | range16 =>
    have first : rdLe f pos 2 = start.toNat := rdLe_le16 (h.trans (List.append_assoc ..))
    have second : rdLe f (pos + 2) 2 = stop.toNat := rdLe_le16 (drop_advance h (a := le16 start) (List.append_assoc ..))
    have enough : ¬f.length - pos < 4 := by rw [left]; simp +arith
    refine (if_neg enough).trans ?_
    rw [first, second, startStop]
    split_ifs <;> rfl

/-- A count of indices is read whatever it says. -/
theorem decRange_index (henough : 2 ≤ f.length - pos) :
    decRange 0x28 f pos = .ok (⟨0, rdLe f pos 2, 2⟩, pos + 2) :=
  if_neg (Nat.not_lt.2 henough)

/-- A count of indices that stands at the cursor. -/
theorem decRange_count {n : U16} (h : f.drop pos = le16 n ++ data) :
    decRange 0x28 f pos = .ok (⟨0, n.toNat, 2⟩, pos + 2) := by
  rw [← rdLe_le16 h]
  exact decRange_index (by rw [left_of_drop h]; simp +arith)

/-- The number of bytes a range field needs, by its qualifier (R57). -/
def rangeFieldLen (q : Byte) : Nat := if q = 0x01 then 4 else 2

/-- A range field that is cut off. -/
theorem decRange_short {q : Byte} (hq : q = 0x00 ∨ q = 0x01 ∨ q = 0x28) (h : f.drop pos = data)
    (hshort : data.length < rangeFieldLen q) :
    decRange q f pos = .error ⟨.truncatedObject, pos, rangeFieldLen q, data.length⟩ := by
  rw [← left_of_drop h] at hshort ⊢
  rcases hq with rfl | rfl | rfl
  · exact if_pos hshort
  · exact if_pos hshort
  · exact if_pos hshort

/-- A qualifier that is none of the three a response may hold. -/
theorem decRange_unknown {q : Byte} (h8 : q ≠ 0x00) (h16 : q ≠ 0x01) (hidx : q ≠ 0x28) :
    decRange q f pos = .error ⟨.badQualifier, pos - 1, 0, q.toNat⟩ :=
  (if_neg h8).trans ((if_neg h16).trans (if_neg hidx))

end

/-! ### One object block (R147) -/

section
variable {f r : Bytes} {hoff : Nat} {g v q : Byte}

theorem decBlock_short (h : f.drop hoff = r) (hshort : r.length < 3) :
    decBlock f hoff = .error ⟨.truncatedObject, hoff, 3, r.length⟩ := by
  rw [← left_of_drop h] at hshort ⊢
  exact if_pos hshort

section
variable (h : f.drop hoff = g :: v :: q :: r)
include h

/-- The three bytes of a whole object header, where the decoder looks for them. -/
theorem objectHeader_of_drop :
    ¬f.length - hoff < 3 ∧ byteAt f hoff = g ∧ byteAt f (hoff + 1) = v ∧ byteAt f (hoff + 2) = q :=
  ⟨by rw [left_of_drop h]; simp, byteAt_of_drop h 0, byteAt_of_drop h 1, byteAt_of_drop h 2⟩

theorem decBlock_unknown (hd : lookupObj g v = none) :
    decBlock f hoff = .error ⟨.unknownObject, hoff, 0, g.toNat * 256 + v.toNat⟩ := by
  obtain ⟨enough, hg, hv, -⟩ := objectHeader_of_drop h
  simp only [decBlock, if_neg enough, hg, hv, hd]

variable {d : Descriptor} (hd : lookupObj g v = some d)
include hd

theorem decBlock_range_error {e : Fail} (hr : decRange q f (hoff + 3) = .error e) : decBlock f hoff = .error e := by
  obtain ⟨enough, hg, hv, hq⟩ := objectHeader_of_drop h
  simp only [decBlock, if_neg enough, hg, hv, hq, hd, hr]

section
variable {range : RangeField} {pos : Nat} (hr : decRange q f (hoff + 3) = .ok (range, pos))
include hr

theorem decBlock_data (hidx : d.kind = .packed → range.idxBytes = 0) :
    decBlock f hoff = decData d g v range f pos := by
  obtain ⟨enough, hg, hv, hq⟩ := objectHeader_of_drop h
  have fits : ¬(d.kind = .packed ∧ range.idxBytes ≠ 0) := fun bad => bad.2 (hidx bad.1)
  simp only [decBlock, if_neg enough, hg, hv, hq, hd, hr, if_neg fits]

theorem decBlock_packedIndex (hk : d.kind = .packed) (hidx : range.idxBytes ≠ 0) :
    decBlock f hoff = .error ⟨.badQualifier, hoff + 2, 0, q.toNat⟩ := by
  obtain ⟨enough, hg, hv, hq⟩ := objectHeader_of_drop h
  simp only [decBlock, if_neg enough, hg, hv, hq, hd, hr, if_pos (And.intro hk hidx)]

end

end

/-- The data area of a block whose range field stands complete, whatever the object is. -/
theorem decBlock_bounds {start stop : U16} {bounds data : Bytes} {d : Descriptor} (hd : lookupObj g v = some d)
    (hb : BoundsField start stop q bounds) (hle : start.toNat ≤ stop.toNat)
    (h : f.drop hoff = g :: v :: q :: (bounds ++ data)) :
    decBlock f hoff = decData d g v ⟨start.toNat, stop.toNat - start.toNat + 1, 0⟩ f (hoff + 3 + bounds.length) ∧
      f.drop (hoff + 3 + bounds.length) = data := by
  have field : f.drop (hoff + 3) = bounds ++ data := drop_advance h (a := [g, v, q]) rfl
  exact ⟨decBlock_data h hd ((decRange_bounds hb field).trans (if_neg (Nat.not_lt.2 hle))) fun _ => rfl,
    drop_advance field rfl⟩

/-- A block with a count of indices, of an object that is not PACKED. -/
theorem decBlock_count {n : U16} {data : Bytes} {d : Descriptor} (hd : lookupObj g v = some d) (hk : d.kind ≠ .packed)
    (h : f.drop hoff = g :: v :: 0x28 :: (le16 n ++ data)) :
    decBlock f hoff = decPoints d g v ⟨0, n.toNat, 2⟩ f n.toNat 0 (hoff + 5) ∧ f.drop (hoff + 5) = data := by
  have field : f.drop (hoff + 3) = le16 n ++ data := drop_advance h (a := [g, v, 0x28]) rfl
  exact ⟨(decBlock_data h hd (decRange_count field) fun hp => absurd hp hk).trans (if_neg hk), drop_advance field rfl⟩

end

/-- A complete object block at the cursor gives its records, and the cursor then stands behind it. -/
theorem decBlock_of_blockReads {block : Bytes} {ps : List PointRec} (hb : BlockReads block ps) {f rest : Bytes} {hoff : Nat}
    (h : f.drop hoff = block ++ rest) : decBlock f hoff = .ok (ps, hoff + block.length) := by
  cases hb with
  | @range g v d start stop field points hd hk hr hlen =>
    obtain ⟨hle, q, bounds, rfl, hb⟩ := boundsField_of_rangeReads hr
    obtain ⟨read, area⟩ := decBlock_bounds (data := points.flatMap (encPoint d) ++ rest) hd hb hle (h.trans (by simp))
    rw [read, decData, if_neg hk, ← hlen, decPoints_range hd hk area, blockRecords, hd, formIndices, ← hlen,
      List.range_eq_range']
    simp +arith
  | @packed g v d start stop field data hd hk hr hlen =>
    obtain ⟨hle, q, bounds, rfl, hb⟩ := boundsField_of_rangeReads hr
    obtain ⟨read, area⟩ := decBlock_bounds (data := data ++ rest) hd hb hle (h.trans (by simp))
    rw [read, decData_packed hd hk area hlen]
    simp +arith
  | @index g v d idx points hd hk hfits hlen =>
    obtain ⟨read, area⟩ := decBlock_count (n := BitVec.ofNat 16 idx.length)
      (data := (idx.zip points).flatMap (fun x => le16 x.1 ++ encPoint d x.2) ++ rest) hd hk (h.trans (by simp))
    have count : (BitVec.ofNat 16 idx.length).toNat = points.length := by
      rw [BitVec.toNat_ofNat, hlen]; omega
    rw [read, count, decPoints_index hd hk hlen area, blockRecords, hd]
    simp +arith [formIndices]

end Sys2Proof.Machine

/-! APP.DEC on a whole fragment (spec/43_application.md R145 to R150): the object loop over complete blocks, and what an encoder
writes as such blocks. -/

namespace Sys2Proof.Machine

/-! ### The object loop (R147, R155) -/

section
variable {f : Bytes} {fuel pos : Nat}

theorem decObjects_end (h : f.length ≤ pos) : decObjects f fuel pos = .ok [] := by
  cases fuel with
  | zero => rfl
  | succ fuel => exact if_neg (Nat.not_lt.2 h)

theorem decObjects_error (hpos : pos < f.length) {e : Fail} (hb : decBlock f pos = .error e) :
    decObjects f (fuel + 1) pos = .error e := by
  simp only [decObjects, if_pos hpos, hb]

theorem decObjects_cons (hpos : pos < f.length) {pos' : Nat} {ps : List PointRec} (hb : decBlock f pos = .ok (ps, pos')) :
    decObjects f (fuel + 1) pos = (decObjects f fuel pos').map (ps ++ ·) := by
  simp only [decObjects, if_pos hpos, hb]
  cases decObjects f fuel pos' <;> rfl

end

/-- An object block has a header of three bytes at least (R56). -/
theorem BlockReads.three_le {block : Bytes} {ps : List PointRec} (h : BlockReads block ps) : 3 ≤ block.length := by
  cases h with
  | range _ _ hr _ | packed _ _ hr _ =>
    obtain ⟨-, q, bounds, rfl, -⟩ := boundsField_of_rangeReads hr
    simp +arith
  | index _ _ _ _ => simp +arith

section
variable {blocks : List (Bytes × List PointRec)} (hblocks : ∀ b ∈ blocks, BlockReads b.1 b.2)
include hblocks

/-- There are no more blocks than bytes, so a turn of the loop for each byte is enough (R155). -/
theorem length_le_of_blockReads : blocks.length ≤ (blocks.flatMap Prod.fst).length := by
  induction blocks with
  | nil => exact Nat.le_refl 0
  | cons b blocks ih =>
    obtain ⟨hb, hrest⟩ := List.forall_mem_cons.1 hblocks
    have := hb.three_le
    have := ih hrest
    rw [List.flatMap_cons, List.length_append, List.length_cons]
    omega

/-- The loop reads complete blocks one after another and goes on behind them. -/
theorem decObjects_blocks {f rest : Bytes} {fuel pos : Nat} (h : f.drop pos = blocks.flatMap Prod.fst ++ rest) :
    decObjects f (blocks.length + fuel) pos =
      (decObjects f fuel (pos + (blocks.flatMap Prod.fst).length)).map (blocks.flatMap Prod.snd ++ ·) := by
  induction blocks generalizing pos with
  | nil =>
    rw [List.length_nil, Nat.zero_add]
    exact (congrFun Except.map_id _).symm
  | cons b blocks ih =>
    obtain ⟨hb, hrest⟩ := List.forall_mem_cons.1 hblocks
    rw [List.flatMap_cons, List.append_assoc] at h
    have inside : pos < f.length :=
      pos_lt_of_drop h (List.append_ne_nil_of_left_ne_nil (List.ne_nil_of_length_pos (by have := hb.three_le; omega)) _)
    rw [List.length_cons, Nat.add_right_comm, decObjects_cons inside (decBlock_of_blockReads hb h),
      ih hrest (drop_advance h rfl), List.flatMap_cons, List.flatMap_cons, List.length_append, ← Nat.add_assoc]
    cases decObjects f fuel (pos + b.1.length + (blocks.flatMap Prod.fst).length) <;>
      simp [Except.map]

/-- A fragment with complete blocks behind its header: the loop has a turn left when it has read them. -/
theorem decFragment_blocks {head rest : Bytes} {hd : AppHeader} (hhead : 2 ≤ head.length)
    (h : decHeader (head ++ blocks.flatMap Prod.fst ++ rest) = .ok (hd, head.length)) :
    ∃ fuel, decFragment (head ++ blocks.flatMap Prod.fst ++ rest) =
      (decObjects (head ++ blocks.flatMap Prod.fst ++ rest) (fuel + 1)
        (head.length + (blocks.flatMap Prod.fst).length)).map (fun ps => (hd, blocks.flatMap Prod.snd ++ ps)) := by
  have few := length_le_of_blockReads hblocks
  obtain ⟨fuel, hfuel⟩ : ∃ fuel, (head ++ blocks.flatMap Prod.fst ++ rest).length = blocks.length + (fuel + 1) :=
    ⟨(head ++ blocks.flatMap Prod.fst ++ rest).length - blocks.length - 1, by simp only [List.length_append]; omega⟩
  have behind_head : (head ++ blocks.flatMap Prod.fst ++ rest).drop head.length = blocks.flatMap Prod.fst ++ rest := by
    rw [List.append_assoc, List.drop_left]
  refine ⟨fuel, ?_⟩
  simp only [decFragment, h, hfuel, decObjects_blocks hblocks behind_head]
  cases decObjects (head ++ blocks.flatMap Prod.fst ++ rest) (fuel + 1) _ <;> rfl

/-- APP.DEC on a fragment of complete blocks. -/
theorem appDecode_blocks {s : State} {head : Bytes} {hd : AppHeader} (hhead : 2 ≤ head.length)
    (hin : s.inBuf = head ++ blocks.flatMap Prod.fst) (h : decHeader s.inBuf = .ok (hd, head.length)) :
    appDecode s = .next ((s.setPts (blocks.flatMap Prod.snd)).finish .ok (.fragment hd)) := by
  rw [hin, ← List.append_nil (head ++ _)] at h
  obtain ⟨fuel, read⟩ := decFragment_blocks hblocks hhead h
  rw [decObjects_end (by simp), List.append_nil, ← hin] at read
  rw [appDecode_ok (read.trans rfl), List.append_nil]

/-- APP.DEC on a fragment whose first bad block stands behind complete ones. -/
theorem appDecode_bad_block {s : State} {head rest : Bytes} {hd : AppHeader} {e : Fail} (hhead : 2 ≤ head.length)
    (hin : s.inBuf = head ++ blocks.flatMap Prod.fst ++ rest) (h : decHeader s.inBuf = .ok (hd, head.length))
    (hrest : rest ≠ []) (hbad : decBlock s.inBuf (head.length + (blocks.flatMap Prod.fst).length) = .error e) :
    appDecode s = .next ((s.setPts []).failWith e .none) := by
  rw [hin] at h
  obtain ⟨fuel, read⟩ := decFragment_blocks hblocks hhead h
  have inside : head.length + (blocks.flatMap Prod.fst).length < s.inBuf.length := by
    have := List.length_pos_iff.2 hrest
    simp only [hin, List.length_append]; omega
  rw [← hin, decObjects_error inside hbad] at read
  exact appDecode_error read

end

/-! ### What an encoder writes (R142, R156) -/

/-- A range field an encoder writes is one the decoder reads. -/
theorem encHeader_rangeReads (g v : Byte) {start stop : U16} (hle : start.toNat ≤ stop.toNat) :
    ∃ field, encHeader g v (.range start stop) = [g, v] ++ field ∧ RangeReads start stop field := by
  rw [encHeader_range]
  split
  · exact ⟨[0x00, start.extractLsb' 0 8, stop.extractLsb' 0 8], rfl, hle, .inl ⟨‹_›, rfl⟩⟩
  · exact ⟨[0x01] ++ le16 start ++ le16 stop, rfl, hle, .inr rfl⟩

/-- The record of a packed entry depends on its state alone. -/
theorem entryRecord_packed {d : Descriptor} (hk : d.kind = .packed) (g v : Byte) (x : U16) {e e' : PointEntry}
    (h : e.raw.getLsbD 0 = e'.raw.getLsbD 0) : entryRecord d g v x e = entryRecord d g v x e' := by
  simp only [entryRecord, entryRaw, entryFlags, hk, h]

/-- Bit by bit the packed entries come back. -/
theorem packedRecords_packBits {d : Descriptor} (hk : d.kind = .packed) (g v : Byte) (start : Nat)
    (points : List PointEntry) :
    packedRecords d g v start points.length (packBits ((points.length + 7) / 8) (points.map fun e => e.raw.getLsbD 0)) =
      List.zipWith (entryRecord d g v) ((List.range points.length).map fun k => BitVec.ofNat 16 (start + k)) points := by
  refine List.ext_getElem (by simp [packedRecords]) fun i hi _ => ?_
  have hi : i < points.length := by simpa [packedRecords] using hi
  have hbyte : i / 8 < (points.length + 7) / 8 := by omega
  have bit : (byteAt (packBits ((points.length + 7) / 8) (points.map fun e => e.raw.getLsbD 0)) (i / 8)).getLsbD (i % 8) =
      points[i].raw.getLsbD 0 := by
    have place : 8 * (i / 8) + i % 8 = i := Nat.div_add_mod i 8
    rw [packBits_eq_map, byteAt, List.getD_eq_getElem _ _ (by simpa using hbyte), List.getElem_map, List.getElem_range,
      packed_bit _ _ (Nat.mod_lt _ (by decide)), place]
    simp [hi]
  simp only [packedRecords, List.getElem_map, List.getElem_range, List.getElem_zipWith, bit]
  exact entryRecord_packed hk g v _ (by cases points[i].raw.getLsbD 0 <;> rfl)

/-- What an encoder writes for a block it accepts is a complete block with the block's records. -/
theorem blockReads_encDataBlock {b : DataBlock} (h : blockAccepted b) (hfits : b.form.fits = true) :
    BlockReads (encDataBlock b) (blockRecords b) := by
  obtain ⟨g, v, form, points⟩ := b
  obtain ⟨d, hd, hform⟩ := h
  cases form with
  | all => exact hform.elim
  | index idx =>
    obtain ⟨hk, hlen⟩ := hform
    rw [encDataBlock_index hd idx points hk]
    exact .index hd hk (of_decide_eq_true hfits) hlen
  | range start stop =>
    obtain ⟨hle, hlen⟩ := hform
    obtain ⟨field, hfield, hreads⟩ := encHeader_rangeReads g v hle
    by_cases hk : d.kind = .packed
    · have area : (packBits ((points.length + 7) / 8) (points.map fun e => e.raw.getLsbD 0)).length =
          (stop.toNat - start.toNat + 1 + 7) / 8 := by rw [packBits_eq_map, hlen]; simp
      have reads := BlockReads.packed hd hk hreads area
      rw [← hlen, packedRecords_packBits hk] at reads
      rw [encDataBlock_packed hd start stop points hk, hfield, blockRecords, hd, formIndices, ← hlen]
      exact reads
    · rw [encDataBlock_range hd start stop points hk, hfield]
      exact .range hd hk hreads hlen

/-- Settles O45: block after block, from the header of either kind. -/
theorem appDecDecodesFragment : Obligations.AppDecDecodesFragment := by
  refine ⟨fun s apc iin1 iin2 blocks hblocks => ⟨fun hin => ?response, fun hin => ?confirm⟩,
    fun b h hfits => blockReads_encDataBlock h hfits, fun g v d bs hd hk hlen => encPoint_surjective hd hk hlen⟩
  case response =>
    exact appDecode_blocks hblocks (head := [apc, 0x81, iin1, iin2]) (by simp) hin
      (by rw [hin]; exact decHeader_response ..)
  case confirm =>
    exact appDecode_blocks hblocks (head := [apc, 0x00]) (by simp) hin (by rw [hin]; exact decHeader_confirm ..)

end Sys2Proof.Machine

/-! The errors of APP.DEC in the order it meets them (spec/43_application.md R146 to R149, R153; spec/60_exceptions.md R204),
and what an error and a full result exclude (R150 to R152). -/

namespace Sys2Proof.Machine

/-! ### A data area that is cut off (R149) -/

section
variable {g v : Byte} {d : Descriptor} {r : RangeField} {f data : Bytes} {pos : Nat}

/-- The points that are whole are read, and the first that is not is reported with what is left for it. -/
theorem decPoints_short {k i : Nat} (hneed : 1 ≤ r.idxBytes + pointSize d) (h : f.drop pos = data)
    (hshort : data.length < k * (r.idxBytes + pointSize d)) :
    decPoints d g v r f k i pos = .error ⟨.truncatedObject,
      pos + data.length / (r.idxBytes + pointSize d) * (r.idxBytes + pointSize d), r.idxBytes + pointSize d,
      data.length % (r.idxBytes + pointSize d)⟩ := by
  induction k generalizing i pos data with
  | zero => rw [Nat.zero_mul] at hshort; exact absurd hshort (Nat.not_lt_zero _)
  | succ k ih =>
    rw [← left_of_drop h] at hshort ⊢
    rcases Nat.lt_or_ge (f.length - pos) (r.idxBytes + pointSize d) with hlt | hge
    · simp only [decPoints, if_pos hlt, Nat.div_eq_of_lt hlt, Nat.mod_eq_of_lt hlt, Nat.zero_mul, Nat.add_zero]
    · have left : (f.drop (pos + (r.idxBytes + pointSize d))).length =
          f.length - pos - (r.idxBytes + pointSize d) := by rw [List.length_drop]; omega
      have fewer := ih (i := i + 1) rfl (by rw [left]; rw [Nat.succ_mul] at hshort; omega)
      rw [left] at fewer
      simp only [decPoints, if_neg (Nat.not_lt.2 hge), fewer]
      rw [Nat.div_eq_sub_div hneed hge, Nat.mod_eq_sub_mod hge, Nat.succ_mul, Nat.add_assoc, Nat.add_comm (_ * _)]

theorem decData_packed_short (hk : d.kind = .packed) (h : f.drop pos = data) (hcount : r.count ≤ 65536)
    (hshort : data.length < (r.count + 7) / 8) :
    decData d g v r f pos = .error ⟨.truncatedObject, pos, (r.count + 7) / 8, data.length⟩ := by
  rw [← left_of_drop h] at hshort ⊢
  have whole : min (ceilDiv r.count 8) 65535 = (r.count + 7) / 8 := by rw [ceilDiv]; omega
  simp only [decData, if_pos hk, whole]
  exact if_pos hshort

end

/-! ### The errors of one object block (R147 to R149) -/

section
variable {f data : Bytes} {hoff : Nat} {g v q : Byte} {d : Descriptor} (hd : lookupObj g v = some d)
include hd

section
variable {start stop : U16} {bounds : Bytes} (hb : BoundsField start stop q bounds)
  (h : f.drop hoff = g :: v :: q :: (bounds ++ data))
include hb h

theorem decBlock_backwards (hlt : stop.toNat < start.toNat) :
    decBlock f hoff = .error ⟨.badQualifier, hoff + 3, start.toNat, stop.toNat⟩ :=
  decBlock_range_error h hd ((decRange_bounds hb (drop_advance h (a := [g, v, q]) rfl)).trans (if_pos hlt))

theorem decBlock_packed_short (hle : start.toNat ≤ stop.toNat) (hk : d.kind = .packed)
    (hshort : data.length < (stop.toNat - start.toNat + 1 + 7) / 8) :
    decBlock f hoff = .error ⟨.truncatedObject, hoff + 3 + bounds.length, (stop.toNat - start.toNat + 1 + 7) / 8,
      data.length⟩ := by
  obtain ⟨read, area⟩ := decBlock_bounds hd hb hle h
  rw [read]
  exact decData_packed_short hk area (by simp only; omega) hshort

theorem decBlock_points_short (hle : start.toNat ≤ stop.toNat) (hk : d.kind ≠ .packed)
    (hshort : data.length < (stop.toNat - start.toNat + 1) * pointSize d) :
    decBlock f hoff = .error ⟨.truncatedObject, hoff + 3 + bounds.length + data.length / pointSize d * pointSize d,
      pointSize d, data.length % pointSize d⟩ := by
  obtain ⟨read, area⟩ := decBlock_bounds hd hb hle h
  have cut := decPoints_short (g := g) (v := v) (d := d) (r := ⟨start.toNat, stop.toNat - start.toNat + 1, 0⟩) (i := 0)
    (k := stop.toNat - start.toNat + 1) (by rw [Nat.zero_add]; exact one_le_pointSize hd hk) area
    (by rw [Nat.zero_add]; exact hshort)
  rw [Nat.zero_add] at cut
  rw [read, decData, if_neg hk, cut]

end

/-- A PACKED object takes no indices, however many are announced. -/
theorem decBlock_packed_indices (hk : d.kind = .packed) (h : f.drop hoff = g :: v :: 0x28 :: data)
    (hcount : 2 ≤ data.length) :
    decBlock f hoff = .error ⟨.badQualifier, hoff + 2, 0, 0x28⟩ := by
  have field := left_of_drop (drop_advance h (a := [g, v, 0x28]) rfl)
  exact decBlock_packedIndex h hd (decRange_index (hcount.trans field.ge)) hk (by simp)

theorem decBlock_count_short {n : U16} (h : f.drop hoff = g :: v :: 0x28 :: (le16 n ++ data))
    (hk : d.kind ≠ .packed) (hshort : data.length < n.toNat * (2 + pointSize d)) :
    decBlock f hoff = .error ⟨.truncatedObject,
      hoff + 5 + data.length / (2 + pointSize d) * (2 + pointSize d), 2 + pointSize d,
      data.length % (2 + pointSize d)⟩ := by
  obtain ⟨read, area⟩ := decBlock_count hd hk h
  rw [read]
  exact decPoints_short (r := ⟨0, n.toNat, 2⟩) (Nat.le_add_right_of_le one_le_two) area hshort

end

/-! ### The first error of a fragment (R153, R204) -/

/-- Complete blocks with the records they hold. -/
theorem exists_records {blocks : List Bytes} (h : ∀ b ∈ blocks, ∃ ps, BlockReads b ps) :
    ∃ read : List (Bytes × List PointRec), (∀ b ∈ read, BlockReads b.1 b.2) ∧ read.flatMap Prod.fst = blocks.flatten := by
  induction blocks with
  | nil => exact ⟨[], by simp, rfl⟩
  | cons b blocks ih =>
    obtain ⟨⟨ps, hb⟩, hrest⟩ := List.forall_mem_cons.1 h
    obtain ⟨read, hread, hflat⟩ := ih hrest
    exact ⟨(b, ps) :: read, List.forall_mem_cons.2 ⟨hb, hread⟩, by simp [hflat]⟩

/-- The header of a RESPONSE or of a CONFIRM is read whatever follows it. -/
theorem decHeader_of_head {apc iin1 iin2 : Byte} {head : Bytes} (h : head = [apc, 0x81, iin1, iin2] ∨ head = [apc, 0x00])
    (tail : Bytes) : 2 ≤ head.length ∧ ∃ hd, decHeader (head ++ tail) = .ok (hd, head.length) := by
  rcases h with rfl | rfl
  · exact ⟨by simp, _, decHeader_response apc iin1 iin2 tail⟩
  · exact ⟨by simp, _, decHeader_confirm apc tail⟩

theorem decHeader_unexpected {apc fc : Byte} {rest : Bytes} (hr : fc ≠ 0x81) (hc : fc ≠ 0x00) :
    decHeader (apc :: fc :: rest) = .error ⟨.unexpectedFunction, 1, 0x81, fc.toNat⟩ := by
  have long : ¬(apc :: fc :: rest).length < 2 := by simp
  simp only [decHeader, if_neg long]
  exact (if_neg hr).trans (if_neg hc)

theorem decHeader_no_iin {apc : Byte} {rest : Bytes} (h : rest.length < 2) :
    decHeader (apc :: 0x81 :: rest) = .error ⟨.truncatedObject, 2, 2, rest.length⟩ := by
  have long : ¬(apc :: 0x81 :: rest).length < 2 := by simp
  have short : (apc :: 0x81 :: rest).length < 4 := by simp only [List.length_cons]; omega
  simp only [decHeader, if_neg long]
  exact if_pos short

/-- A header APP.DEC refuses is its answer. -/
theorem appDecode_bad_header {s : State} {e : Fail} (h : decHeader s.inBuf = .error e) :
    appDecode s = .next ((s.setPts []).failWith e .none) :=
  appDecode_error (by simp only [decFragment, h])

/-- The bounds of a one-byte range field. -/
theorem boundsField_bytes (start stop : Byte) :
    BoundsField (start.setWidth 16) (stop.setWidth 16) 0x00 [start, stop] := by
  have bound (b : Byte) : (b.setWidth 16).toNat ≤ 255 := by
    have := b.isLt
    rw [BitVec.toNat_setWidth]; omega
  have low (b : Byte) : (b.setWidth 16).extractLsb' 0 8 = b := by
    revert b; decide
  have field := BoundsField.range8 (bound start) (bound stop)
  rwa [low, low] at field

/-- Settles O46: a header that is refused, or the first bad block behind complete ones. -/
theorem appDecReportsFirstError : Obligations.AppDecReportsFirstError := by
  refine ⟨fun s hshort => ?short, fun s apc fc rest hin hr hc => ?function, fun s apc rest hin hshort => ?indications,
    ?block⟩
  case short => exact appDecode_bad_header (if_pos hshort)
  case function => exact appDecode_bad_header (by rw [hin]; exact decHeader_unexpected hr hc)
  case indications => exact appDecode_bad_header (by rw [hin]; exact decHeader_no_iin hshort)
  case block =>
    intro s apc iin1 iin2 head blocks rest hhead hblocks hin hoff failed
    obtain ⟨read, hread, hflat⟩ := exists_records hblocks
    rw [← hflat] at hin
    obtain ⟨htwo, hd, header⟩ := decHeader_of_head hhead (read.flatMap Prod.fst ++ rest)
    rw [← List.append_assoc, ← hin] at header
    have place : hoff = head.length + (read.flatMap Prod.fst).length := by rw [hflat]
    have at_rest : s.inBuf.drop hoff = rest := by rw [hin, place, ← List.length_append, List.drop_left]
    have report {e : Fail} (hrest : rest ≠ []) (hbad : decBlock s.inBuf hoff = .error e) :
        exec .appDec s = .next ((s.setPts []).failWith e .none) :=
      appDecode_bad_block hread htwo hin header hrest (place ▸ hbad)
    refine ⟨fun hone hshort => ?header, ?object⟩
    case header => exact report (List.ne_nil_of_length_pos hone) (decBlock_short at_rest hshort)
    case object =>
      rintro g v q r rfl
      have block {e : Fail} (hbad : decBlock s.inBuf hoff = .error e) :
          exec .appDec s = .next ((s.setPts []).failWith e .none) := report (List.cons_ne_nil _ _) hbad
      have field : s.inBuf.drop (hoff + 3) = r := drop_advance at_rest (a := [g, v, q]) rfl
      have cut (hq : q = 0x00 ∨ q = 0x01 ∨ q = 0x28) (hshort : r.length < rangeFieldLen q) {d : Descriptor}
          (hd : lookupObj g v = some d) :=
        block (decBlock_range_error at_rest hd (decRange_short hq field hshort))
      refine ⟨fun hnone => block (decBlock_unknown at_rest hnone), fun d hd => ⟨fun h8 h16 hidx => ?unknown,
        fun hq hshort => ?short8, fun hq hshort => ?short16, fun hq hshort => ?shortIndex,
        fun start stop data hq hr => ⟨fun hlt => ?back8,
          fun hle => ⟨fun hk hshort => ?packed8, fun hk hshort => ?points8⟩⟩,
        fun start stop data hq hr => ⟨fun hlt => ?back16,
          fun hle => ⟨fun hk hshort => ?packed16, fun hk hshort => ?points16⟩⟩,
        fun count data hq hr => ⟨fun hk => ?packedIndex, fun hk hshort => ?pointsIndex⟩⟩⟩
      case unknown => exact block (decBlock_range_error at_rest hd (decRange_unknown h8 h16 hidx))
      case short8 => subst hq; exact cut (.inl rfl) hshort hd
      case short16 => subst hq; exact cut (.inr (.inl rfl)) hshort hd
      case shortIndex => subst hq; exact cut (.inr (.inr rfl)) hshort hd
      case back8 => subst hq hr; exact block (decBlock_backwards hd (boundsField_bytes start stop) at_rest hlt)
      case packed8 =>
        subst hq hr
        exact block (decBlock_packed_short hd (boundsField_bytes start stop) at_rest hle hk hshort)
      case points8 =>
        subst hq hr
        exact block (decBlock_points_short hd (boundsField_bytes start stop) at_rest hle hk hshort)
      case back16 => subst hq hr; exact block (decBlock_backwards hd .range16 at_rest hlt)
      case packed16 => subst hq hr; exact block (decBlock_packed_short hd .range16 at_rest hle hk hshort)
      case points16 => subst hq hr; exact block (decBlock_points_short hd .range16 at_rest hle hk hshort)
      case packedIndex => subst hq hr; exact block (decBlock_packed_indices hd hk at_rest (by simp +arith))
      case pointsIndex => subst hq hr; exact block (decBlock_count_short hd at_rest hk hshort)

end Sys2Proof.Machine

/-! What APP.DEC may answer (spec/43_application.md R150 to R153): an error of its own, or records of known objects. -/

namespace Sys2Proof.Machine

/-! ### An error of the scan, or records (R152) -/

/-- The errors APP.DEC raises (R153, R201). -/
def raisedByAppDec : Err → Bool
  | .unknownObject | .truncatedObject | .badQualifier | .unexpectedFunction => true
  | _ => false

theorem le_code_of_raisedByAppDec : ∀ {e : Err}, raisedByAppDec e = true → 0x30 ≤ e.code.toNat := by
  intro e; cases e <;> decide

/-- A part of the scan gives an error of APP.DEC, or a value of which `Q` holds. -/
def Gives {α : Type} (Q : α → Prop) : Except Fail α → Prop
  | .error e => raisedByAppDec e.err = true
  | .ok a => Q a

/-- The record of an entry of an object of the table. -/
def TableRecord (p : PointRec) : Prop :=
  ∃ g v d x e, lookupObj g v = some d ∧ p = entryRecord d g v x e

/-- A run of records and the cursor behind them. -/
abbrev TableRecords (x : List PointRec × Nat) : Prop := ∀ p ∈ x.1, TableRecord p

section
variable {g v : Byte} {d : Descriptor} (hd : lookupObj g v = some d) {f : Bytes}
include hd

/-- Whatever bytes stand at the cursor, as many as a point has are some entry's. -/
theorem decPoint_tableRecord (hk : d.kind ≠ .packed) {pos : Nat} (hsize : pointSize d ≤ f.length - pos) (x : U16) :
    TableRecord (decPoint d g v x f pos) := by
  obtain ⟨e, he⟩ := encPoint_surjective hd hk (bs := (f.drop pos).take (pointSize d)) (by simpa using hsize)
  have point : f.drop pos = encPoint d e ++ (f.drop pos).drop (pointSize d) := by rw [he, List.take_append_drop]
  exact ⟨g, v, d, x, e, hd, decPoint_encPoint hd hk point x⟩

theorem decPoints_gives (hk : d.kind ≠ .packed) (r : RangeField) (k i pos : Nat) :
    Gives TableRecords (decPoints d g v r f k i pos) := by
  induction k generalizing i pos with
  | zero => exact fun p hp => absurd hp List.not_mem_nil
  | succ k ih =>
    have more := ih (i + 1) (pos + (r.idxBytes + pointSize d))
    simp only [decPoints]
    split
    · exact rfl
    · split
      · rwa [‹decPoints .. = _›] at more
      · rw [‹decPoints .. = _›] at more
        exact List.forall_mem_cons.2 ⟨decPoint_tableRecord hd hk (by omega) _, more⟩

theorem decData_gives (r : RangeField) (pos : Nat) : Gives TableRecords (decData d g v r f pos) := by
  simp only [decData]
  split
  · split
    · exact rfl
    · exact List.forall_mem_map.2 fun i _ => ⟨g, v, d, _, _, hd, decPacked_eq_entryRecord hd ‹_› r.start i⟩
  · exact decPoints_gives hd ‹_› r r.count 0 pos

end

theorem startStop_gives (pos start stop : Nat) : Gives (fun _ => True) (startStop pos start stop) := by
  unfold startStop
  split
  · exact rfl
  · trivial

theorem decRange_gives (q : Byte) (f : Bytes) (pos : Nat) : Gives (fun _ => True) (decRange q f pos) := by
  simp only [decRange]
  have bounds (start stop : Nat) := startStop_gives pos start stop
  split_ifs
  · exact rfl
  · split
    · rename_i h; have := bounds (byteAt f pos).toNat (byteAt f (pos + 1)).toNat; rwa [h] at this
    · trivial
  · exact rfl
  · split
    · rename_i h; have := bounds (rdLe f pos 2) (rdLe f (pos + 2) 2); rwa [h] at this
    · trivial
  · exact rfl
  · trivial
  · exact rfl

theorem decBlock_gives (f : Bytes) (hoff : Nat) : Gives TableRecords (decBlock f hoff) := by
  have range := decRange_gives (byteAt f (hoff + 2)) f (hoff + 3)
  simp only [decBlock]
  split
  · exact rfl
  · split
    · exact rfl
    · split
      · rwa [‹decRange .. = _›] at range
      · split
        · exact rfl
        · exact decData_gives ‹_› _ _

theorem decObjects_gives (f : Bytes) (fuel pos : Nat) :
    Gives (fun ps => ∀ p ∈ ps, TableRecord p) (decObjects f fuel pos) := by
  induction fuel generalizing pos with
  | zero => exact fun p hp => absurd hp List.not_mem_nil
  | succ fuel ih =>
    have block := decBlock_gives f pos
    simp only [decObjects]
    split
    · split
      · rwa [‹decBlock .. = _›] at block
      · rw [‹decBlock .. = _›] at block
        rename_i ps pos' _
        have more := ih pos'
        split
        · rwa [‹decObjects .. = _›] at more
        · rw [‹decObjects .. = _›] at more
          exact List.forall_mem_append.2 ⟨block, more⟩
    · exact fun p hp => absurd hp List.not_mem_nil

theorem decHeader_gives (f : Bytes) : Gives (fun _ => True) (decHeader f) := by
  simp only [decHeader]
  split_ifs
  · exact rfl
  · exact rfl
  · trivial
  · trivial
  · exact rfl

theorem decFragment_gives (f : Bytes) : Gives (fun x => ∀ p ∈ x.2, TableRecord p) (decFragment f) := by
  have header := decHeader_gives f
  simp only [decFragment]
  split
  · rwa [‹decHeader .. = _›] at header
  · rename_i hd pos _
    have objects := decObjects_gives f f.length pos
    split
    · rwa [‹decObjects .. = _›] at objects
    · rwa [‹decObjects .. = _›] at objects

/-- Settles O47: an error of APP.DEC with PTS emptied, or the header results. -/
theorem appDecAllOrNothing : Obligations.AppDecAllOrNothing := by
  intro s t h
  have answer := decFragment_gives s.inBuf
  rcases appDecode_cases h with ⟨f, hf, rfl⟩ | ⟨hd, ps, hf, rfl⟩
  · rw [hf] at answer
    exact .inr ⟨le_code_of_raisedByAppDec answer, rfl, rfl, rfl⟩
  · exact .inl ⟨rfl, hd, rfl⟩

/-! ### What a record says (R150, R151) -/

section
variable {g v : Byte} {d : Descriptor} (hd : lookupObj g v = some d) (e : PointEntry)

theorem entryRaw_le_one (hk : d.kind = .packed ∨ d.kind = .boolflag) : entryRaw d e ≤ 1 := by
  have bit (b : Bool) : b.toNat ≤ 1 := Bool.toNat_le b
  rcases hk with hk | hk <;> simp only [entryRaw, hk] <;> exact bit _

theorem entryValue_binary (hk : d.kind = .packed ∨ d.kind = .boolflag) (raw : Nat) : entryValue d raw = some raw := by
  rcases hk with hk | hk <;> simp [entryValue, hk]

theorem entryValue_int (hk : d.kind = .int) (raw : Nat) : entryValue d raw =
    some (if d.signed = true ∧ 2 ^ (8 * d.vbytes - 1) ≤ raw then (raw : Int) - 2 ^ (8 * d.vbytes) else raw) := by
  simp only [entryValue, hk]
  split_ifs <;> simp_all

theorem entryValue_eq_none (raw : Nat) : entryValue d raw = none ↔ d.kind = .float := by
  unfold entryValue
  split_ifs <;> simp_all

include hd

/-- The bits of an entry fit `raw`. -/
theorem entryRaw_toNat : (BitVec.ofNat 64 (entryRaw d e)).toNat = entryRaw d e := by
  rw [BitVec.toNat_ofNat]
  refine Nat.mod_eq_of_lt ?_
  have number (hn : d.kind = .int ∨ d.kind = .float) : entryRaw d e < 2 ^ 64 :=
    (entryRaw_lt e hn).trans_le (Nat.pow_le_pow_right (by decide) (by have := vbytes_le_eight hd; omega))
  cases layout_of_lookupObj hd with
  | packed hk _ => exact (entryRaw_le_one e (.inl hk)).trans_lt (by decide)
  | boolflag hk _ => exact (entryRaw_le_one e (.inr hk)).trans_lt (by decide)
  | value hn _ | flagsValue hn _ | valueFlags hn _ => exact number hn

/-- An entry has a flag byte exactly where its object does. -/
theorem entryFlags_isSome : (entryFlags d e).isSome = true ↔ d.flagPos ≠ .none := by
  cases layout_of_lookupObj hd with
  | packed hk hf | boolflag hk hf => simp [entryFlags, hk, hf]
  | value hn hf | flagsValue hn hf | valueFlags hn hf => rcases hn with hk | hk <;> simp [entryFlags, hk, hf]

/-- The number of an entry is in the range of the 32-bit integers of either kind. -/
theorem entryValue_bounds {x : Int} (hx : entryValue d (entryRaw d e) = some x) : -2147483648 ≤ x ∧ x ≤ 4294967295 := by
  have binary (hk : d.kind = .packed ∨ d.kind = .boolflag) : -2147483648 ≤ x ∧ x ≤ 4294967295 := by
    have := entryRaw_le_one e hk
    rw [entryValue_binary hk] at hx
    cases hx; omega
  cases hk : d.kind with
  | packed => exact binary (.inl hk)
  | boolflag => exact binary (.inr hk)
  | float => rw [(entryValue_eq_none _).2 hk] at hx; cases hx
  | int =>
    obtain ⟨hpos, hmax⟩ := vbytes_of_int hd hk
    have fits := entryRaw_lt e (.inl hk)
    have half : 2 ^ (8 * d.vbytes) = 2 * 2 ^ (8 * d.vbytes - 1) := by
      rw [← Nat.pow_succ']; congr 1; omega
    have small : 2 ^ (8 * d.vbytes - 1) ≤ 2 ^ 31 := Nat.pow_le_pow_right (by decide) (by omega)
    rw [entryValue_int hk] at hx
    split_ifs at hx with hneg <;> cases hx
    · have : (2 : Int) ^ (8 * d.vbytes) = ((2 ^ (8 * d.vbytes) : Nat) : Int) := by simp
      omega
    · omega

end

/-- Settles O48: the record is an entry's, and an entry's record agrees with its descriptor. -/
theorem decodedPointsAgreeWithTable : Obligations.DecodedPointsAgreeWithTable := by
  intro s t h p hp
  have answer := decFragment_gives s.inBuf
  rcases appDecode_cases h with ⟨f, hf, rfl⟩ | ⟨hd, ps, hf, rfl⟩
  · exact absurd hp List.not_mem_nil
  · rw [hf] at answer
    obtain ⟨g, v, d, x, e, hd, rfl⟩ := answer p hp
    have raw : (entryRecord d g v x e).raw.toNat = entryRaw d e := entryRaw_toNat hd e
    have value : (entryRecord d g v x e).value = entryValue d (entryRaw d e) := rfl
    refine ⟨d, hd, rfl, rfl, entryValue_eq_none _,
      fun y hy => entryValue_bounds hd e hy, fun hk => ?binary, fun hk => ?fits,
      fun hk => ?int, entryFlags_isSome hd e, ?online, rfl, fun hnone => ?noFlags⟩
    case binary => rw [raw, value]; exact ⟨entryRaw_le_one e hk, entryValue_binary hk _⟩
    case fits => rw [raw]; exact entryRaw_lt e hk
    case int => rw [raw, value]; exact entryValue_int hk _
    case online => simp [entryRecord]
    case noFlags =>
      have none : entryFlags d e = none := Option.not_isSome_iff_eq_none.1 (Bool.eq_false_iff.1 hnone)
      simp [entryRecord, none]

end Sys2Proof.Machine

/-! The Application items of the opcode table, built and parsed (spec/43_application.md R160 to R197; log entry 2): function
codes, qualifiers and object rows. -/

namespace Sys2Proof.Machine

/-! ### One object block behind a header (R146, R147) -/

section
variable {s : State} {apc iin1 iin2 : Byte} {block rest : Bytes} {ps : List PointRec}

/-- APP.DEC on a RESPONSE with one complete block. -/
theorem appDecode_response_block (h : BlockReads block ps) (hin : s.inBuf = [apc, 0x81, iin1, iin2] ++ block) :
    appDecode s = .next ({ s with pts := ps }.endedOk (responseResults apc iin1 iin2)) := by
  have one := (appDecDecodesFragment.1 s apc iin1 iin2 [(block, ps)] (by simpa using h)).1 (by simpa using hin)
  rwa [List.flatMap_singleton] at one

/-- APP.DEC on a CONFIRM with one complete block. -/
theorem appDecode_confirm_block (h : BlockReads block ps) (hin : s.inBuf = [apc, 0x00] ++ block) :
    appDecode s = .next ({ s with pts := ps }.endedOk (confirmResults apc)) := by
  have one := (appDecDecodesFragment.1 s apc 0 0 [(block, ps)] (by simpa using h)).2 (by simpa using hin)
  rwa [List.flatMap_singleton] at one

/-- APP.DEC on a RESPONSE whose first block is bad. -/
theorem appDecode_response_bad_block {e : Fail} (hin : s.inBuf = [apc, 0x81, iin1, iin2] ++ rest) (hrest : rest ≠ [])
    (hbad : s.inBuf.drop 4 = rest → decBlock s.inBuf 4 = .error e) :
    appDecode s = .next ((s.setPts []).failWith e .none) :=
  appDecode_bad_block (blocks := []) (head := [apc, 0x81, iin1, iin2]) (by simp) (by simp) hin
    (by rw [hin]; exact decHeader_response ..) hrest (hbad (by rw [hin]; rfl))

end

/-! ### Function codes (R190 to R197) -/

/-- A function code that is neither RESPONSE nor CONFIRM is refused, whatever stands around it. -/
theorem exec_unexpected {i : Instr} {fc : Byte} {p : FcParse} {s : State} (hi : exec i s = parseFc fc p s)
    (hr : fc ≠ 0x81) (hc : fc ≠ 0x00) : exec i s =
      .next ({ s with inBuf := p.apc :: fc :: p.tail, pts := [] }.endedWith 0x33 1 0x81 fc.toNat .none) :=
  hi.trans (appDecode_bad_header (s := s.setIn (p.apc :: fc :: p.tail)) (decHeader_unexpected hr hc))

/-- Settles O54: built by the encoder of its class, refused by APP.DEC. -/
theorem requestFunctionCodes : Obligations.RequestFunctionCodes := by
  refine ⟨fun a => encodesRequest_of_appRead fun _ => rfl, fun a code => ?built, fun p s code => ?parsed⟩
  case built =>
    exact ⟨encodesBlocks_of_appWrite fun _ => rfl, encodesBlocks_of_appWrite fun _ => rfl,
      encodesBlocks_of_appWrite fun _ => rfl, encodesBlocks_of_appWrite fun _ => rfl,
      encodesBlocks_of_appWrite fun _ => rfl⟩
  case parsed =>
    refine ⟨exec_unexpected rfl (by decide) (by decide), exec_unexpected rfl (by decide) (by decide),
      exec_unexpected rfl (by decide) (by decide), exec_unexpected rfl (by decide) (by decide),
      exec_unexpected rfl (by decide) (by decide), fun hcode => exec_unexpected rfl ?_ ?_⟩
    · rintro rfl; revert hcode; decide
    · rintro rfl; revert hcode; decide

/-- Settles O55: each header alone and before one block. -/
theorem confirmAndResponseCodes : Obligations.ConfirmAndResponseCodes := by
  refine ⟨fun _ _ => endsIn_of_appConfirm rfl, fun _ => encodesBlocks_of_appRespond fun _ => rfl,
    fun _ _ => ⟨rfl, rfl⟩, fun apc block ps s h => ⟨?confirmAlone, ?confirm⟩,
    fun apc iin1 iin2 block ps s h => ⟨?responseAlone, ?response⟩, fun p s hshort => ?noIndications⟩
  case confirmAlone => exact appDecode_bare (s := s.setIn [apc, 0x00]) (decHeader_confirm apc [])
  case confirm => exact appDecode_confirm_block (s := s.setIn (apc :: 0x00 :: block)) h rfl
  case responseAlone =>
    exact appDecode_bare (s := s.setIn [apc, 0x81, iin1, iin2]) (decHeader_response apc iin1 iin2 [])
  case response => exact appDecode_response_block (s := s.setIn (apc :: 0x81 :: iin1 :: iin2 :: block)) h rfl
  case noIndications => exact appDecode_bad_header (s := s.setIn (p.apc :: 0x81 :: p.tail)) (decHeader_no_iin hshort)

/-! ### Qualifiers (R185 to R188, R148) -/

/-- The fragment in which an item of the first object block is parsed. -/
abbrev itemFragment (c : ObjCtx) (g v q : Byte) (tail : Bytes) : Bytes :=
  [c.apc, 0x81, c.iin1, c.iin2, g, v, q] ++ tail

section
variable {i : Instr} {s : State} {c : ObjCtx} {g v q : Byte} {tail : Bytes}
  (hi : exec i s = appDecode (s.setIn (itemFragment c g v q tail)))
include hi

/-- An item of a complete block is parsed with the block's records. -/
theorem exec_item {ps : List PointRec} (h : BlockReads ([g, v, q] ++ tail) ps) : exec i s =
    .next ({ s with inBuf := itemFragment c g v q tail, pts := ps }.endedOk (responseResults c.apc c.iin1 c.iin2)) :=
  hi.trans (appDecode_response_block h rfl)

/-- An item of a bad block is parsed with the block's error. -/
theorem exec_bad_item {e : Err} {code : Byte} {offset expected actual : Nat} (hcode : e.code = code)
    (h : ∀ f : Bytes, f.drop 4 = g :: v :: q :: tail → decBlock f 4 = .error ⟨e, offset, expected, actual⟩) :
    exec i s = .next ({ s with inBuf := itemFragment c g v q tail, pts := [] }.endedWith code offset expected actual
      .none) := by
  subst hcode
  exact hi.trans (appDecode_response_bad_block (apc := c.apc) (iin1 := c.iin1) (iin2 := c.iin2) rfl
    (List.cons_ne_nil _ _) (h _))

/-- An item of a block of an unknown object is not looked at. -/
theorem exec_unknown_item (hd : lookupObj g v = none) : exec i s =
    .next ({ s with inBuf := itemFragment c g v q tail, pts := [] }.endedWith 0x30 4 0 (g.toNat * 256 + v.toNat)
      .none) :=
  exec_bad_item hi rfl fun _ h => decBlock_unknown h hd

end

/-- A qualifier is built by READ of the one request block that takes it. -/
theorem encodesRequest_of_buildQual {i : Instr} {b : QualBuild} {form : Form} (h : ∀ s, exec i s = buildQual b form s) :
    encodesRequest i [controlByte true true b.con false b.seq, 0x01] [⟨b.group, b.variation, form⟩] :=
  encodesRequest_of_appRead (a := ⟨b.con, b.seq, [⟨b.group, b.variation, form⟩]⟩) h

/-- Settles O56: READ of the range, any complete block of the form, and the backwards range. -/
theorem rangeQualifiers : Obligations.RangeQualifiers := by
  refine ⟨fun _ => encodesRequest_of_buildQual fun _ => rfl, fun _ => encodesRequest_of_buildQual fun _ => rfl,
    fun p s => ?parsed, fun c g v d start stop data s hd hlt => ?backwards⟩
  case parsed =>
    exact List.forall_mem_cons.2 ⟨⟨rfl, fun _ h => exec_item rfl h⟩,
      List.forall_mem_singleton.2 ⟨rfl, fun _ h => exec_item rfl h⟩⟩
  case backwards =>
    have refused {q : Byte} {bounds : Bytes} (hb : BoundsField start stop q bounds) (f : Bytes)
        (h : f.drop 4 = g :: v :: q :: (bounds ++ data)) :
        decBlock f 4 = .error ⟨.badQualifier, 7, start.toNat, stop.toNat⟩ := decBlock_backwards hd hb h hlt
    exact ⟨fun hstart => exec_bad_item rfl rfl (refused (.range8 hstart (by omega))),
      exec_bad_item rfl rfl (refused .range16)⟩

/-- Settles O57: READ of all points; no response holds the qualifier, and the object is looked up first. -/
theorem allAndOtherQualifiers : Obligations.AllAndOtherQualifiers := by
  refine ⟨fun _ => encodesRequest_of_buildQual fun _ => rfl, fun p d q s hd => ?refused, fun p q s hd => ?unknownObject⟩
  case refused =>
    have refused {q : Byte} (h8 : q ≠ 0x00) (h16 : q ≠ 0x01) (hidx : q ≠ 0x28) (f : Bytes)
        (h : f.drop 4 = p.group :: p.variation :: q :: p.tail) :
        decBlock f 4 = .error ⟨.badQualifier, 6, 0, q.toNat⟩ :=
      decBlock_range_error h hd (decRange_unknown h8 h16 hidx)
    refine ⟨exec_bad_item rfl rfl (refused (by decide) (by decide) (by decide)), fun hq => ?other⟩
    case other =>
      have none_of_four : q ≠ 0x00 ∧ q ≠ 0x01 ∧ q ≠ 0x06 ∧ q ≠ 0x28 := by simpa [qualifierCodes, cfg] using hq
      obtain ⟨h8, h16, -, hidx⟩ := none_of_four
      exact exec_bad_item rfl rfl (refused h8 h16 hidx)
  case unknownObject =>
    simp only [List.forall_mem_cons]
    exact ⟨exec_unknown_item rfl hd, exec_unknown_item rfl hd, exec_unknown_item rfl hd, exec_unknown_item rfl hd,
      exec_unknown_item rfl hd, nofun⟩

/-- Settles O58: READ of the indices, any complete block with indices, and the PACKED object. -/
theorem countIndexQualifier : Obligations.CountIndexQualifier := by
  refine ⟨fun _ => encodesRequest_of_buildQual fun _ => rfl, fun p s => ⟨rfl, fun ps h => exec_item rfl h,
    fun d hd hk hcount => ?packed⟩⟩
  case packed =>
    have refused (f : Bytes) (h : f.drop 4 = p.group :: p.variation :: 0x28 :: p.tail) :
        decBlock f 4 = .error ⟨.badQualifier, 6, 0, 0x28⟩ := decBlock_packed_indices hd hk h hcount
    exact exec_bad_item rfl rfl refused

/-! ### Object rows (R160 to R181) -/

/-- The instruction of an object row is a use of the row's object. -/
theorem exec_objectRow : ∀ x ∈ objectRows, ∀ u s, exec (x.1 u) s = useObj x.2.1 x.2.2 u s := by
  simp only [objectRows, List.forall_mem_cons]
  exact ⟨fun _ _ => rfl, fun _ _ => rfl, fun _ _ => rfl, fun _ _ => rfl, fun _ _ => rfl, fun _ _ => rfl,
    fun _ _ => rfl, fun _ _ => rfl, fun _ _ => rfl, fun _ _ => rfl, fun _ _ => rfl, fun _ _ => rfl, fun _ _ => rfl,
    fun _ _ => rfl, fun _ _ => rfl, fun _ _ => rfl, fun _ _ => rfl, fun _ _ => rfl, fun _ _ => rfl, fun _ _ => rfl,
    fun _ _ => rfl, fun _ _ => rfl, nofun⟩

/-- Settles O59: one data block to build, any complete block to parse. -/
theorem objectRowItems : Obligations.ObjectRowItems := by
  intro x hx
  have use := exec_objectRow x hx
  refine ⟨fun b => encodesBlocks_of_appWrite (a := ⟨b.con, b.seq, [⟨x.2.1, x.2.2, b.form, b.points⟩]⟩) fun s => use _ s,
    fun p s => ⟨use _ s, fun ps h => ?read⟩⟩
  case read => exact exec_item (use _ s) h

/-- The rows of the opcode table are those of `OBJ_TABLE`: a pair that is none of them is unknown. -/
theorem lookupObj_of_no_objectRow {g v : Byte} (h : ∀ x ∈ objectRows, x.2 ≠ (g, v)) : lookupObj g v = none := by
  have rows : objectRows.map (·.2) = cfg.objTable.map fun r => (r.group, r.variation) := rfl
  have pairs : ∀ y ∈ objectRows.map (·.2), y ≠ (g, v) := List.forall_mem_map.2 h
  rw [rows, List.forall_mem_map] at pairs
  exact lookupObj_eq_none.2 fun r hr same => pairs r hr (Prod.ext same.1.symm same.2.symm)

/-- Settles O60: the object table is the first check of the encoder's block and of the decoder's. -/
theorem unknownObjectItem : Obligations.UnknownObjectItem := by
  intro g v hother
  have unknown := lookupObj_of_no_objectRow hother
  refine ⟨fun b s => ?built, fun p s => exec_unknown_item rfl unknown⟩
  case built =>
    have encodes := encodesBlocks_of_appWrite (i := .objOther g v (.build b)) (func := b.func)
      (a := ⟨b.con, b.seq, [⟨g, v, b.form, b.points⟩]⟩) fun _ => rfl
    exact (encodes s).1 [] ⟨g, v, b.form, b.points⟩ [] _ _ _ rfl nofun (.unknownObject unknown)

end Sys2Proof.Machine

/-! The block goes on after every error: no run from a sound state stops with a fault (spec/60_exceptions.md R207;
spec/10_state.md R16, R26). -/

namespace Sys2Proof.Machine

/-! ### Operations and instructions end -/

/-- CRC.CHK's work: fewer than two bytes, or the comparison as a result (R87). -/
theorem execCrcChk_cases {s t : State} (e : execCrcChk s = .next t) :
    t = s.failWith ⟨.truncated, s.inBuf.length, 2, s.inBuf.length⟩ .none ∨ ∃ r, t = s.finish .ok r := by
  rcases Nat.lt_or_ge s.inBuf.length 2 with hlen | hlen
  · exact .inl (next_inj ((execCrcChk_short hlen).symm.trans e)).symm
  · exact .inr ⟨_, (next_inj ((execCrcChk_of_two_le hlen).symm.trans e)).symm⟩

/-- CRC.CHK always ends. -/
theorem execCrcChk_next (s : State) : ∃ t, execCrcChk s = .next t := by
  rcases Nat.lt_or_ge s.inBuf.length 2 with hlen | hlen
  · exact ⟨_, execCrcChk_short hlen⟩
  · exact ⟨_, execCrcChk_of_two_le hlen⟩

/-- LINK.ENC always ends. -/
theorem linkEncode_next (a : LinkAddr) (s : State) : ∃ t, linkEncode a s = .next t := by
  rcases Nat.lt_or_ge cfg.linkPayloadMax s.inBuf.length with hlen | hlen
  · exact ⟨_, linkEncode_long hlen⟩
  · exact ⟨_, linkEncode_ok hlen⟩

section
variable {s : State} (h : s.Inv)
include h

/-- TP.RX ends on a sound state: a first segment follows no held byte, a later one follows bytes that were written. -/
theorem State.Inv.tpReceive_ends : ∃ t, tpReceive s = .next t := by
  cases hin : s.inBuf with
  | nil => exact ⟨_, tpReceive_empty hin⟩
  | cons b data =>
    cases hfir : tphFir b with
    | true =>
      rw [tpReceive_first hin hfir]
      exact tpAccept_next fun k hk => absurd hk (Nat.not_lt_zero k)
    | false =>
      cases hact : s.rxActive with
      | false => exact ⟨_, tpReceive_noFir hin hfir hact⟩
      | true =>
        by_cases hseq : tphSeq b = s.rxExpect
        · rw [tpReceive_next hin hfir hact hseq]
          exact tpAccept_next h.rxBuf_held
        · exact ⟨_, tpReceive_mismatch hin hfir hact hseq⟩

/-- Every operation ends on a sound state. -/
theorem State.Inv.exec_operation_ends (o : Operation) : ∃ t, exec o.instr s = .next t := by
  cases o with
  | crcClr | crcUpd _ | crcRd | crcCalc | tpRst | appEncConfirm _ | illegal _ => exact ⟨_, rfl⟩
  | crcChk => exact execCrcChk_next s
  | linkEnc a => exact linkEncode_next a s
  | linkDec => exact linkDecode_next s
  | tpSeg seg => exact tpSegment_next seg s
  | tpRx => exact h.tpReceive_ends
  | appEncRead _ | appEncWrite _ _ | appEncResp _ => exact emitFragment_next _ _ s
  | appDec => exact appDecode_next s

/-- Every well-formed instruction ends on a sound state. -/
theorem State.Inv.exec_ends {i : Instr} (hw : i.WellFormed) : ∃ t, exec i s = .next t := by
  rw [(runsAs_runOf i).exec_eq]
  exact (h.withOperand (runOf_operandFits hw)).exec_operation_ends _

/-! ### Steps and runs -/

/-- A step from a sound state is no fault, whatever the host does at the port. -/
theorem State.Inv.step_ne_fault (r : Fault) : step s ≠ .fault r := by
  cases hp : s.port with
  | nil => rw [step_of_port_nil hp]; nofun
  | cons act rest =>
    cases act with
    | writeIn bs => rw [step_of_writeIn hp]; split <;> nofun
    | issue w =>
      cases hd : decode w with
      | error e => rw [step_of_decode_error hp hd]; nofun
      | ok i =>
        obtain ⟨t, ht⟩ := (h.setPort rest).exec_ends (decode_wellFormed hd)
        rw [step_of_decode_ok hp hd, ht]; nofun

end

/-- A run goes on from the state its first step answers. -/
theorem core_run_succ_of_next {s t : State} (n : Nat) (e : step s = .next t) : core.run (n + 1) s = core.run n t := by
  have first : core.step s = .next t := e
  simp only [Host.Core.run, first]

/-- A refused first step refuses the run. -/
theorem core_run_succ_of_refused {s : State} {r : Refusal} (n : Nat) (e : step s = .refused r) :
    core.run (n + 1) s = .refused r := by
  have first : core.step s = .refused r := e
  simp only [Host.Core.run, first]

/-- Settles O9, by induction on the length of the run: a step from a sound state is no fault and leaves a sound state. -/
theorem soundRunsNeverFault : Obligations.SoundRunsNeverFault := by
  intro n
  induction n with
  | zero => exact fun s _ r => nofun
  | succ n ih =>
    intro s h r
    cases e : step s with
    | next t => rw [core_run_succ_of_next n e]; exact ih t (stepKeepsSoundState s t h e) r
    | fault f => exact absurd e (h.step_ne_fault f)
    | refused f => rw [core_run_succ_of_refused n e]; nofun

end Sys2Proof.Machine

/-! What an operation that ends with an error leaves (spec/60_exceptions.md R205, R206). -/

namespace Sys2Proof.Machine

/-! ### Errors and non-errors -/

theorem Done.code_lt (d : Done) : d.code.toNat < 0x10 := by cases d <;> decide

/-- What ended with `done` did not end with an error. -/
theorem finish_not_error {s : State} {d : Done} {r : Results} : ¬0x10 ≤ (s.finish d r).status.toNat :=
  Nat.not_le.2 d.code_lt

/-- What a failed instruction leaves: no results but LINK.DEC's `consumed`, no output, and of the registers only TP.RX's
reassembly is changed. -/
structure DeliversNothing (i : Instr) (s t : State) : Prop where
  results    : t.results = .none ∨ (runsLinkDec i = true ∧ ∃ c, t.results = .dropped c)
  outBuf     : leavesOut i = false → t.outBuf = []
  pts        : runsAppDec i = true → t.pts = []
  crcAcc     : t.crcAcc = s.crcAcc
  txSeq      : t.txSeq = s.txSeq
  rxExpect   : t.rxExpect = s.rxExpect
  rxBuf      : t.rxBuf = s.rxBuf
  receiver   : runsTpRx i = false → t.rxActive = s.rxActive ∧ t.rxLen = s.rxLen ∧ t.stale = s.stale
  reassembly : runsTpRx i = true → t.rxActive = false ∧ (t.inBuf.length ≤ cfg.apduMax → t.stale = false)

section
variable {s t : State}

/-- Outside TP.RX a failed operation leaves every register of R25. -/
theorem SameRegisters.deliversNothing {i : Instr} (h : SameRegisters s t) (hrx : runsTpRx i = false)
    (results : t.results = .none ∨ (runsLinkDec i = true ∧ ∃ c, t.results = .dropped c))
    (outBuf : leavesOut i = false → t.outBuf = []) (pts : runsAppDec i = true → t.pts = []) :
    DeliversNothing i s t where
  results := results
  outBuf := outBuf
  pts := pts
  crcAcc := h.crcAcc
  txSeq := h.txSeq
  rxExpect := h.rxExpect
  rxBuf := h.rxBuf
  receiver _ := ⟨h.rxActive, h.rxLen, h.stale⟩
  reassembly hr := absurd (hrx.symm.trans hr) nofun

/-! ### Failures outside TP.RX -/

section
variable {i : Instr} (hrx : runsTpRx i = false)
include hrx

/-- An operation with a byte-string result empties OUT before it fails. -/
theorem deliversNothing_clearOut (happ : runsAppDec i = false) (f : Fail) :
    DeliversNothing i s ((s.setOut []).failWith f .none) :=
  (((SameRegisters.refl s).setOut []).failWith f .none).deliversNothing hrx (.inl rfl) (fun _ => rfl)
    fun ha => absurd (happ.symm.trans ha) nofun

/-- An operation that writes neither OUT nor PTS just fails. -/
theorem deliversNothing_failWith (hl : leavesOut i = true) (happ : runsAppDec i = false) (f : Fail) :
    DeliversNothing i s (s.failWith f .none) :=
  ((SameRegisters.refl s).failWith f .none).deliversNothing hrx (.inl rfl) (fun ho => absurd (hl.symm.trans ho) nofun)
    fun ha => absurd (happ.symm.trans ha) nofun

end

theorem linkDecode_fails (e : linkDecode s = .next t) (herr : 0x10 ≤ t.status.toNat) : DeliversNothing .linkDec s t := by
  have fails (f : Fail) (c : U16) : DeliversNothing .linkDec s ((s.setOut []).failWith f (.dropped c)) :=
    (((SameRegisters.refl s).setOut []).failWith f _).deliversNothing rfl (.inr ⟨rfl, c, rfl⟩) (fun _ => rfl) nofun
  rcases linkDecode_cases e with ⟨f, -, rfl⟩ | ⟨n, f, -, -, rfl⟩ | ⟨n, p, -, -, rfl⟩
  · exact fails f _
  · exact fails f _
  · exact absurd herr finish_not_error

theorem appDecode_fails (e : appDecode s = .next t) (herr : 0x10 ≤ t.status.toNat) : DeliversNothing .appDec s t := by
  rcases appDecode_cases e with ⟨f, -, rfl⟩ | ⟨hd, ps, -, rfl⟩
  · exact (((SameRegisters.refl s).setPts []).failWith f .none).deliversNothing rfl (.inl rfl) nofun fun _ => rfl
  · exact absurd herr finish_not_error

theorem emitFragment_fails {i : Instr} (hrx : runsTpRx i = false) (happ : runsAppDec i = false) {bad : Option Fail}
    {fragment : Bytes} (e : emitFragment bad fragment s = .next t) (herr : 0x10 ≤ t.status.toNat) :
    DeliversNothing i s t := by
  rcases emitFragment_cases e with ⟨f, -, rfl⟩ | ⟨-, -, rfl⟩ | ⟨-, -, rfl⟩
  · exact deliversNothing_clearOut hrx happ _
  · exact deliversNothing_clearOut hrx happ _
  · exact absurd herr finish_not_error

/-! ### Failures of TP.RX -/

/-- The end of TP.RX's work has one error (R124). -/
theorem tpAccept_fails {b : Byte} {data : Bytes} (e : tpAccept b data s = .next t) (herr : 0x10 ≤ t.status.toNat) :
    cfg.rxBufMax < s.rxLen.toNat + data.length ∧
      t = (s.setRx false 0).failWith ⟨.overflow, 0, cfg.rxBufMax, s.rxLen.toNat + data.length⟩ .none := by
  rcases tpAccept_cases e with overflow | ⟨u, -, -, ⟨-, bs, -, rfl⟩ | ⟨-, rfl⟩⟩
  · exact overflow
  · exact absurd herr finish_not_error
  · exact absurd herr finish_not_error

/-- TP.RX fails with OUT emptied, no message in progress and, if IN is within its capacity, STALE cleared. -/
theorem deliversNothing_tpRx {active stale : Bool} (len : BitVec 13) (f : Fail) (hidle : active = false)
    (hstale : s.inBuf.length ≤ cfg.apduMax → stale = false) :
    DeliversNothing .tpRx s ((((s.setOut []).setStale stale).setRx active len).failWith f .none) where
  results := .inl rfl
  outBuf _ := rfl
  pts := nofun
  crcAcc := rfl
  txSeq := rfl
  rxExpect := rfl
  rxBuf := rfl
  receiver := nofun
  reassembly _ := ⟨hidle, hstale⟩

/-- A first segment that overflows RX_BUF is longer than IN; every other error clears STALE. -/
theorem tpReceive_fails (e : tpReceive s = .next t) (herr : 0x10 ≤ t.status.toNat) : DeliversNothing .tpRx s t := by
  rcases tpReceive_cases e with
    ⟨-, rfl⟩ | ⟨b, data, hin, ⟨-, hacc⟩ | ⟨-, hidle, rfl⟩ | ⟨-, -, -, rfl⟩ | ⟨-, -, -, hacc⟩⟩
  case inl => exact absurd herr finish_not_error
  case inr.inl =>
    obtain ⟨hover, rfl⟩ := tpAccept_fails hacc herr
    refine deliversNothing_tpRx 0 _ rfl fun hfits => ?_
    have hlong : 4096 < 0 + data.length := hover
    have hshort : s.inBuf.length ≤ 4096 := hfits
    rw [hin, List.length_cons] at hshort
    omega
  case inr.inr.inl => exact deliversNothing_tpRx s.rxLen _ hidle fun _ => rfl
  case inr.inr.inr.inl => exact deliversNothing_tpRx 0 _ rfl fun _ => rfl
  case inr.inr.inr.inr =>
    obtain ⟨-, rfl⟩ := tpAccept_fails hacc herr
    exact deliversNothing_tpRx 0 _ rfl fun _ => rfl

/-! ### Every instruction -/

/-- Every operation that ends with an error delivers nothing. -/
theorem exec_operation_fails {o : Operation} (e : exec o.instr s = .next t) (herr : 0x10 ≤ t.status.toNat) :
    DeliversNothing o.instr s t := by
  cases o with
  | crcClr | crcUpd _ | crcRd | crcCalc | tpRst | appEncConfirm _ =>
    obtain rfl := next_inj e
    exact absurd herr finish_not_error
  | crcChk =>
    rcases execCrcChk_cases e with rfl | ⟨r, rfl⟩
    · exact deliversNothing_failWith rfl rfl rfl _
    · exact absurd herr finish_not_error
  | linkEnc a =>
    rcases linkEncode_cases e with ⟨-, rfl⟩ | ⟨-, rfl⟩
    · exact deliversNothing_clearOut rfl rfl _
    · exact absurd herr finish_not_error
  | linkDec => exact linkDecode_fails e herr
  | tpSeg seg =>
    rcases tpSegment_cases e with ⟨-, rfl⟩ | ⟨-, -, rfl⟩
    · exact deliversNothing_clearOut rfl rfl _
    · exact absurd herr finish_not_error
  | tpRx => exact tpReceive_fails e herr
  | appEncRead _ | appEncWrite _ _ | appEncResp _ => exact emitFragment_fails rfl rfl e herr
  | appDec => exact appDecode_fails e herr
  | illegal op => exact next_inj e ▸ deliversNothing_failWith rfl rfl rfl _

end

/-- Settles O13: the instruction's operation fails on a state of the same registers, and it is of the same classes. -/
theorem failureDeliversNothing : Obligations.FailureDeliversNothing := by
  intro i s t e herr
  have run := runsAs_runOf i
  obtain ⟨hleaves, -⟩ := runOf_buffers i
  have before := sameRegisters_withOperand s (runOf i).operand
  rw [run.exec_eq] at e
  have left := exec_operation_fails e herr
  rw [run.runsLinkDec_eq, run.runsAppDec_eq, run.runsTpRx_eq, hleaves]
  refine ⟨left.results, left.outBuf, left.pts, left.crcAcc.trans before.crcAcc, left.txSeq.trans before.txSeq,
    left.rxExpect.trans before.rxExpect, left.rxBuf.trans before.rxBuf, fun hrx => ?receiver, left.reassembly⟩
  case receiver =>
    obtain ⟨hact, hlen, hstale⟩ := left.receiver hrx
    exact ⟨hact.trans before.rxActive, hlen.trans before.rxLen, hstale.trans before.stale⟩

end Sys2Proof.Machine

/-! The statuses each operation ends with (spec/60_exceptions.md R201, column "raised by"; R203). -/

namespace Sys2Proof.Machine

/-! ### The errors of the checks -/

/-- The header's checks raise errors of LINK.DEC. -/
theorem HeaderVerdict.code_mem {buf : Bytes} {f : Fail} (h : HeaderVerdict buf (.error f)) :
    f.err.code ∈ linkDecodeStatuses := by
  cases h with
  | badStart0 | badStart1 => exact (by decide : Err.badStart.code ∈ linkDecodeStatuses)
  | short | cut => exact (by decide : Err.truncated.code ∈ linkDecodeStatuses)
  | badCrc => exact (by decide : Err.badHeaderCrc.code ∈ linkDecodeStatuses)
  | badLength => exact (by decide : Err.badLength.code ∈ linkDecodeStatuses)

theorem code_mem_of_raisedByAppDec : ∀ {e : Err}, raisedByAppDec e = true → e.code ∈ appDecodeStatuses := by
  intro e; cases e <;> decide

section
variable {j : Nat} {f : Fail}

theorem rangeFail_err {form : Form} (h : rangeFail j form = some f) : f.err = .encBadForm := by
  cases form with
  | index _ | all => cases h
  | range start stop =>
    simp only [rangeFail] at h
    split at h <;> cases h
    rfl

/-- A request block is refused for its form only (R141). -/
theorem checkReqBlocks_err {blocks : List ReqBlock} (h : checkReqBlocks j blocks = some f) : f.err = .encBadForm := by
  induction blocks generalizing j with
  | nil => cases h
  | cons b rest ih =>
    simp only [checkReqBlocks] at h
    split at h
    · cases h; exact rangeFail_err ‹_›
    · exact ih h

theorem dataFormFail_err {d : Descriptor} {b : DataBlock} (h : dataFormFail j d b = some f) : f.err = .encBadForm := by
  simp only [dataFormFail] at h
  split at h
  · cases h; rfl
  · split at h
    · cases h; exact rangeFail_err ‹_›
    · split_ifs at h <;> cases h <;> rfl

/-- A data block is refused for its object or its form (R142). -/
theorem checkDataBlocks_err {blocks : List DataBlock} (h : checkDataBlocks j blocks = some f) :
    f.err = .encUnknownObject ∨ f.err = .encBadForm := by
  induction blocks generalizing j with
  | nil => cases h
  | cons b rest ih =>
    simp only [checkDataBlocks] at h
    split at h
    · rename_i hb
      cases h
      simp only [dataBlockFail] at hb
      split at hb
      · cases hb; exact .inl rfl
      · exact .inr (dataFormFail_err hb)
    · exact ih h

end

/-! ### Ending with a listed status -/

/-- STATUS is one of the codes given, and without an error the error registers are 0 (R203). -/
structure EndsListed (codes : List Byte) (t : State) : Prop where
  status   : t.status ∈ codes
  no_error : t.status.toNat < 0x10 → t.errOffset = 0 ∧ t.errExpected = 0 ∧ t.errActual = 0

section
variable {codes : List Byte} {s t : State}

theorem endsListed_finish {d : Done} {r : Results} (h : d.code ∈ codes) : EndsListed codes (s.finish d r) :=
  ⟨h, fun _ => ⟨rfl, rfl, rfl⟩⟩

theorem endsListed_failWith {f : Fail} {r : Results} (e : Err) (he : f.err = e) (h : e.code ∈ codes) :
    EndsListed codes (s.failWith f r) := by
  subst he
  exact ⟨h, fun hlt => absurd hlt (Nat.not_lt.2 f.err.le_code)⟩

/-! ### Each operation -/

theorem execCrcChk_endsListed (e : execCrcChk s = .next t) : EndsListed [0x00, 0x10] t := by
  rcases execCrcChk_cases e with rfl | ⟨r, rfl⟩
  · exact endsListed_failWith .truncated rfl (by decide)
  · exact endsListed_finish (by decide)

theorem linkEncode_endsListed {a : LinkAddr} (e : linkEncode a s = .next t) : EndsListed [0x00, 0x15] t := by
  rcases linkEncode_cases e with ⟨-, rfl⟩ | ⟨-, rfl⟩
  · exact endsListed_failWith .payloadTooLong rfl (by decide)
  · exact endsListed_finish (by decide)

theorem linkDecode_endsListed (e : linkDecode s = .next t) : EndsListed linkDecodeStatuses t := by
  rcases linkDecode_cases e with ⟨f, header, rfl⟩ | ⟨n, f, -, blocks, rfl⟩ | ⟨n, p, -, -, rfl⟩
  · exact endsListed_failWith f.err rfl (header ▸ headerVerdict s.inBuf).code_mem
  · exact endsListed_failWith .badBlockCrc (decBlocks_error blocks) (by decide)
  · exact endsListed_finish (by decide)

theorem tpSegment_endsListed {seg : Byte} (e : tpSegment seg s = .next t) : EndsListed [0x00, 0x23] t := by
  rcases tpSegment_cases e with ⟨-, rfl⟩ | ⟨-, -, rfl⟩
  · exact endsListed_failWith .badSegSize rfl (by decide)
  · exact endsListed_finish (by decide)

theorem tpAccept_endsListed {b : Byte} {data : Bytes} (e : tpAccept b data s = .next t) :
    EndsListed tpReceiveStatuses t := by
  rcases tpAccept_cases e with ⟨-, rfl⟩ | ⟨u, -, -, ⟨-, bs, -, rfl⟩ | ⟨-, rfl⟩⟩
  · exact endsListed_failWith .overflow rfl (by decide)
  · exact endsListed_finish (by decide)
  · exact endsListed_finish (by decide)

theorem tpReceive_endsListed (e : tpReceive s = .next t) : EndsListed tpReceiveStatuses t := by
  rcases tpReceive_cases e with ⟨-, rfl⟩ | ⟨b, data, -, ⟨-, hacc⟩ | ⟨-, -, rfl⟩ | ⟨-, -, -, rfl⟩ | ⟨-, -, -, hacc⟩⟩
  · exact endsListed_finish (by decide)
  · exact tpAccept_endsListed hacc
  · exact endsListed_failWith .noFir rfl (by decide)
  · exact endsListed_failWith .sequenceMismatch rfl (by decide)
  · exact tpAccept_endsListed hacc

/-- An encoder ends with OK, with EncTooLong, or as its block checks do. -/
theorem emitFragment_endsListed {bad : Option Fail} {fragment : Bytes} (hok : Done.ok.code ∈ codes)
    (hlong : Err.encTooLong.code ∈ codes) (hbad : ∀ f, bad = some f → f.err.code ∈ codes)
    (e : emitFragment bad fragment s = .next t) : EndsListed codes t := by
  rcases emitFragment_cases e with ⟨f, hf, rfl⟩ | ⟨-, -, rfl⟩ | ⟨-, -, rfl⟩
  · exact endsListed_failWith f.err rfl (hbad f hf)
  · exact endsListed_failWith .encTooLong rfl hlong
  · exact endsListed_finish hok

theorem appRead_endsListed {a : ReadArgs} (e : appRead a s = .next t) : EndsListed appReadStatuses t := by
  refine emitFragment_endsListed (by decide) (by decide) (fun f hf => ?_) e
  rw [checkReqBlocks_err hf]; decide

/-- APP.ENC.WRITE and APP.ENC.RESP make the same checks. -/
theorem emitData_endsListed {blocks : List DataBlock} {fragment : Bytes}
    (e : emitFragment (checkDataBlocks 0 blocks) fragment s = .next t) : EndsListed appEncodeStatuses t := by
  refine emitFragment_endsListed (by decide) (by decide) (fun f hf => ?_) e
  rcases checkDataBlocks_err hf with herr | herr <;> rw [herr] <;> decide

theorem appDecode_endsListed (e : appDecode s = .next t) : EndsListed appDecodeStatuses t := by
  have answer := decFragment_gives s.inBuf
  rcases appDecode_cases e with ⟨f, hf, rfl⟩ | ⟨hd, ps, -, rfl⟩
  · rw [hf] at answer
    exact endsListed_failWith f.err rfl (code_mem_of_raisedByAppDec answer)
  · exact endsListed_finish (by decide)

/-- Every operation ends with a status of its row of R201. -/
theorem exec_operation_endsListed {o : Operation} (e : exec o.instr s = .next t) :
    EndsListed (statusesOf o.instr) t := by
  cases o with
  | crcClr | crcUpd _ | crcRd | crcCalc | tpRst | appEncConfirm _ =>
    exact next_inj e ▸ endsListed_finish (List.mem_singleton_self _)
  | crcChk => exact execCrcChk_endsListed e
  | linkEnc a => exact linkEncode_endsListed e
  | linkDec => exact linkDecode_endsListed e
  | tpSeg seg => exact tpSegment_endsListed e
  | tpRx => exact tpReceive_endsListed e
  | appEncRead a => exact appRead_endsListed e
  | appEncWrite _ _ | appEncResp _ => exact emitData_endsListed e
  | appDec => exact appDecode_endsListed e
  | illegal op => exact next_inj e ▸ endsListed_failWith .illegalOp rfl (List.mem_singleton_self _)

end

/-! ### Every instruction -/

/-- A wire item may end with the statuses of the operation that builds or parses it (log entry 2). -/
theorem statusesOf_runOf (i : Instr) : statusesOf i = statusesOf (runOf i).op.instr := by
  cases i with
  | lnk u | blk u | tph u | apc u | iin u
  | fcConfirm u | fcRead u | fcWrite u | fcSelect u | fcOperate u | fcDirectOperate u | fcResponse u | fcOther _ u
  | qualRange8 u | qualRange16 u | qualAll u | qualCountIndex16 u
  | objG1v1 u | objG1v2 u | objG10v1 u | objG10v2 u | objG20v1 u | objG20v2 u | objG20v5 u | objG20v6 u
  | objG30v1 u | objG30v2 u | objG30v3 u | objG30v4 u | objG30v5 u | objG30v6 u
  | objG40v1 u | objG40v2 u | objG40v3 u | objG40v4 u | objG41v1 u | objG41v2 u | objG41v3 u | objG41v4 u
  | objOther _ _ u => cases u <;> rfl
  | _ => rfl

/-- Settles O15: the instruction ends as its operation does, with a status of the same list. -/
theorem endsWithListedStatus : Obligations.EndsWithListedStatus := by
  intro i s t e
  rw [(runsAs_runOf i).exec_eq] at e
  rw [statusesOf_runOf]
  obtain ⟨status, no_error⟩ := exec_operation_endsListed e
  exact ⟨status, no_error⟩

end Sys2Proof.Machine

/-! The derived properties of the Transport unit (spec/42_transport.md R127): the segments of TP.SEG reassemble, an empty
payload is invisible to what follows, a wrong sequence number loses the rest of its message, and messages are never mixed. -/

namespace Sys2Proof.Machine

/-! ### TP.RX fed payload by payload -/

section
variable {s t u : State} {p : Bytes} {ps : List Bytes}

/-- The host writes the payload into IN and TP.RX runs. -/
theorem feed_cons_next (h : tpReceive (s.setIn p) = .next u) : feed (p :: ps) s = feed ps u := by
  have received : exec .tpRx (s.setIn p) = .next u := h
  simp only [feed, received]

/-- A run that ends went through the end of its first TP.RX. -/
theorem feed_cons_ends (h : feed (p :: ps) s = .next t) : ∃ u, tpReceive (s.setIn p) = .next u ∧ feed ps u = .next t := by
  cases e : tpReceive (s.setIn p) with
  | next u => exact ⟨u, rfl, (feed_cons_next e).symm.trans h⟩
  | fault r =>
    have stopped : exec .tpRx (s.setIn p) = .fault r := e
    simp only [feed, stopped, reduceCtorEq] at h
  | refused r =>
    have stopped : exec .tpRx (s.setIn p) = .refused r := e
    simp only [feed, stopped, reduceCtorEq] at h

end

/-- Payloads fed before do not tell apart two sequences that go the same from every state. -/
theorem feed_append_congr {xs ys : List Bytes} (h : ∀ s, feed xs s = feed ys s) (before : List Bytes) (s : State) :
    feed (before ++ xs) s = feed (before ++ ys) s := by
  induction before generalizing s with
  | nil => exact h s
  | cons p before ih => simp only [List.cons_append, feed, ih]

/-! ### What TP.RX reports of the reassembly (R118) -/

section
variable {s t : State} {h : Byte} {data : Bytes}

theorem tpAccept_stale (e : tpAccept h data s = .next t) : t.stale = s.stale := by
  rcases tpAccept_cases e with ⟨-, rfl⟩ | ⟨u, -, rfl, ⟨-, bs, -, rfl⟩ | ⟨-, rfl⟩⟩ <;> rfl

/-- A message is still in progress after the end of TP.RX only if the segment was kept. -/
theorem tpAccept_pending_of_active (e : tpAccept h data s = .next t) (hact : t.rxActive = true) : t.status = 0x01 := by
  rcases tpAccept_cases e with ⟨-, rfl⟩ | ⟨u, -, rfl, ⟨-, bs, -, rfl⟩ | ⟨-, rfl⟩⟩
  · cases hact
  · cases hact
  · rfl

variable (hin : s.inBuf = h :: data) (e : tpReceive s = .next t)
include hin e

/-- STALE says that a first segment came while a reassembly was in progress. -/
theorem tpReceive_stale : t.stale = (tphFir h && s.rxActive) := by
  rcases tpReceive_cases e with
    ⟨hnil, -⟩ | ⟨b, bs, hb, ⟨hfir, hacc⟩ | ⟨hfir, -, rfl⟩ | ⟨hfir, -, -, rfl⟩ | ⟨hfir, -, -, hacc⟩⟩
  · cases hin.symm.trans hnil
  all_goals
    obtain ⟨rfl, rfl⟩ := List.cons.inj (hin.symm.trans hb)
    rw [hfir]
  · exact tpAccept_stale hacc
  · rfl
  · rfl
  · exact tpAccept_stale hacc

/-- After a segment with a message still in progress TP.RX ended with Pending. -/
theorem tpReceive_pending_of_active (hact : t.rxActive = true) : t.status = 0x01 := by
  rcases tpReceive_cases e with ⟨hnil, -⟩ | ⟨b, bs, -, ⟨-, hacc⟩ | ⟨-, hidle, rfl⟩ | ⟨-, -, -, rfl⟩ | ⟨-, -, -, hacc⟩⟩
  · cases hin.symm.trans hnil
  · exact tpAccept_pending_of_active hacc hact
  · cases hidle.symm.trans hact
  · cases hact
  · exact tpAccept_pending_of_active hacc hact

end

/-! ### The segments of a fragment (R127 items 1 and 2) -/

/-- Fed to the receiver `r`, the segments give Pending for each but the last and the whole message with OK for the last;
STALE is 1 after the first alone, if that one has FIR = 1 and a reassembly was in progress. -/
structure Reassembles (segs : List Bytes) (fir : Bool) (r : State) (message : Bytes) : Prop where
  pending : ∀ k, 0 < k → k < segs.length →
    ∃ v, feed (segs.take k) r = .next v ∧ v.status = 0x01 ∧ v.stale = (fir && r.rxActive && k == 1)
  delivered : ∃ v, feed segs r = .next v ∧ v.status = 0x00 ∧ v.outBuf = message ∧ v.rxActive = false ∧
    v.stale = (fir && r.rxActive && segs.length == 1)

section
variable {r : State} {fir : Bool} {q : BitVec 6} {data old : Bytes} (h : Awaits r fir q old)
include h

/-- The host's write of IN leaves the message in progress. -/
theorem Awaits.setIn (x : Bytes) : Awaits (r.setIn x) fir q old := by
  cases h with
  | first q => exact .first q
  | next hact hexp hold => exact .next hact hexp { hold with }

variable (hcap : old.length + data.length ≤ cfg.rxBufMax)
include hcap

/-- The last segment of a message alone. -/
theorem Awaits.reassembles_last : Reassembles [tphByte true fir q :: data] fir r (old ++ data) where
  pending k hpos hlt := absurd (Nat.lt_one_iff.1 hlt) hpos.ne'
  delivered := by
    obtain ⟨v, hv, hstatus, hout⟩ := (h.setIn (tphByte true fir q :: data)).tpReceive_last rfl hcap rfl
    have stale := tpReceive_stale rfl hv
    rw [tphFir_tphByte] at stale
    have idle : v.rxActive = false := Bool.eq_false_iff.2 fun hact =>
      absurd (hstatus.symm.trans (tpReceive_pending_of_active rfl hv hact)) (by decide)
    exact ⟨v, feed_cons_next hv, hstatus, hout, idle, by simpa using stale⟩

/-- A segment with FIN = 0 before segments that go on from the receiver it leaves. -/
theorem Awaits.reassembles_more {segs : List Bytes} {message : Bytes} (hne : segs ≠ [])
    (later : ∀ v, Awaits v false (q + 1) (old ++ data) → Reassembles segs false v message) :
    Reassembles ((tphByte false fir q :: data) :: segs) fir r message := by
  obtain ⟨v, hv, hnext⟩ := (h.setIn (tphByte false fir q :: data)).tpReceive_more rfl hcap rfl
  have active : v.rxActive = true := by cases hnext; assumption
  have status := tpReceive_pending_of_active rfl hv active
  have stale := tpReceive_stale rfl hv
  rw [tphFir_tphByte] at stale
  have rest := later v hnext
  constructor
  case pending =>
    intro k hpos hlt
    obtain ⟨k, rfl⟩ := Nat.exists_eq_succ_of_ne_zero hpos.ne'
    rw [List.take_succ_cons, feed_cons_next hv]
    rcases k.eq_zero_or_pos with rfl | hk
    · exact ⟨v, rfl, status, by simpa using stale⟩
    · obtain ⟨w, hw, hwstatus, hwstale⟩ := rest.pending k hk (Nat.lt_of_succ_lt_succ hlt)
      exact ⟨w, hw, hwstatus, hwstale.trans (by simp [hk.ne'])⟩
  case delivered =>
    obtain ⟨w, hw, hwstatus, hout, hidle, hwstale⟩ := rest.delivered
    refine ⟨w, (feed_cons_next hv).trans hw, hwstatus, hout, hidle, hwstale.trans ?_⟩
    simp [hne]

end

/-- The segments of `a`, behind a message so far `old`, reassemble to the whole. -/
theorem segments_reassemble {seg k : Nat} {fir : Bool} {q : BitVec 6} {a old : Bytes} {r : State}
    (ha : a.length ≤ (k + 1) * seg) (hcap : old.length + a.length ≤ cfg.rxBufMax) (h : Awaits r fir q old) :
    Reassembles (segments seg (k + 1) fir q a) fir r (old ++ a) := by
  induction k generalizing fir q a old r with
  | zero =>
    have whole : a.take seg = a := List.take_of_length_le (by omega)
    have last := h.reassembles_last hcap
    rw [← whole] at last
    simpa only [segments, decide_true, whole] using last
  | succ k ih =>
    have hrest : (a.drop seg).length ≤ (k + 1) * seg := by
      rw [List.length_drop]; rw [Nat.succ_mul] at ha; omega
    have split : old ++ a = old ++ a.take seg ++ a.drop seg := by rw [List.append_assoc, List.take_append_drop]
    have hcap' : (old ++ a.take seg).length + (a.drop seg).length ≤ cfg.rxBufMax := by
      rw [← List.length_append, ← split, List.length_append]; exact hcap
    rw [split]
    exact h.reassembles_more (by rw [List.length_append] at hcap'; omega) (List.cons_ne_nil _ _)
      fun v hv => ih hrest hcap' hv

/-- Settles O35: the receiver, whatever its state, takes the first segment, and so the rest. -/
theorem tpRoundTrip : Obligations.TpRoundTrip := by
  intro s a seg ha h1 hmax
  obtain ⟨k, hk⟩ := Nat.exists_eq_add_of_le' (one_le_segmentCount a.length seg.toNat)
  have sent := tpSegment_ok (s := s.setIn a) h1 hmax
  have whole := le_segmentCount_mul (n := a.length) h1
  have count : (segments seg.toNat (k + 1) true s.txSeq a).length = k + 1 := by
    rw [segments_eq_map, List.length_map, List.length_range]
  rw [State.setIn_inBuf, hk] at sent
  rw [hk] at whole
  refine ⟨_, segments seg.toNat (k + 1) true s.txSeq a, sent, rfl, by rw [count]; rfl,
    count.trans (hk.symm.trans (segmentCount_eq h1)), fun x hx => ?short, fun r => ?received⟩
  case short =>
    have := segments_length x hx
    omega
  case received =>
    have fits : ([] : Bytes).length + a.length ≤ cfg.rxBufMax := (Nat.zero_add a.length).le.trans ha
    obtain ⟨pending, delivered⟩ := segments_reassemble (r := r) whole fits (.first s.txSeq)
    simp only [Bool.true_and] at pending delivered
    exact ⟨pending, delivered⟩

/-! ### An empty payload (R127 item 3) -/

/-- The state TP.RX leaves on an empty payload (R123). -/
def State.afterEmpty (s : State) : State := (((s.setIn []).setOut []).setStale false).finish .linkOnly .none

theorem State.afterEmpty_afterEmpty (s : State) : s.afterEmpty.afterEmpty = s.afterEmpty := by
  cases s; rfl

theorem tpReceive_setIn_nil (s : State) : tpReceive (s.setIn []) = .next s.afterEmpty := tpReceive_empty rfl

/-- How the operation before it ended is overwritten by every ending of TP.RX. -/
theorem tpAccept_finish (h : Byte) (data : Bytes) (s : State) (d : Done) (r : Results) :
    tpAccept h data (s.finish d r) = tpAccept h data s := rfl

/-- After TP.RX wrote OUT and STALE, an empty payload before is seen in the report of its ending alone. -/
theorem State.afterEmpty_rewritten (s : State) (p : Bytes) (v : Bool) :
    ((s.afterEmpty.setIn p).setOut []).setStale v = (((s.setIn p).setOut []).setStale v).finish .linkOnly .none := by
  cases s; rfl

/-- TP.RX on any payload overwrites all that an empty payload before it changed. -/
theorem tpReceive_afterEmpty (s : State) (p : Bytes) : tpReceive (s.afterEmpty.setIn p) = tpReceive (s.setIn p) := by
  cases p with
  | nil => rw [tpReceive_setIn_nil, tpReceive_setIn_nil, State.afterEmpty_afterEmpty]
  | cons h data =>
    have hin : (s.setIn (h :: data)).inBuf = h :: data := rfl
    have hin' : (s.afterEmpty.setIn (h :: data)).inBuf = h :: data := rfl
    cases hfir : tphFir h with
    | true =>
      rw [tpReceive_first hin hfir, tpReceive_first hin' hfir, State.afterEmpty_rewritten]
      exact tpAccept_finish h data ((((s.setIn (h :: data)).setOut []).setStale s.rxActive).setRx true 0) .linkOnly .none
    | false =>
      cases hact : s.rxActive with
      | false =>
        rw [tpReceive_noFir hin hfir hact, tpReceive_noFir hin' hfir hact, State.afterEmpty_rewritten]
        rfl
      | true =>
        by_cases hseq : tphSeq h = s.rxExpect
        · rw [tpReceive_next hin hfir hact hseq, tpReceive_next hin' hfir hact hseq, State.afterEmpty_rewritten]
          exact tpAccept_finish h data (((s.setIn (h :: data)).setOut []).setStale false) .linkOnly .none
        · rw [tpReceive_mismatch hin hfir hact hseq, tpReceive_mismatch hin' hfir hact hseq, State.afterEmpty_rewritten]
          rfl

/-- Settles O36: the payload behind the empty one overwrites what that one changed, and the rest of the run is the same. -/
theorem tpLinkOnlyInvisible : Obligations.TpLinkOnlyInvisible := by
  intro s before after p
  refine feed_append_congr (fun u => ?_) before s
  have received : exec .tpRx (u.afterEmpty.setIn p) = exec .tpRx (u.setIn p) := tpReceive_afterEmpty u p
  rw [feed_cons_next (tpReceive_setIn_nil u)]
  simp only [feed, received]

/-! ### A message lost (R127 item 4) -/

/-- TP.RX ended with the given error, delivered nothing, and is idle. -/
structure Lost (code : Byte) (t : State) : Prop where
  status   : t.status = code
  outBuf   : t.outBuf = []
  rxActive : t.rxActive = false
  rxLen    : t.rxLen = 0

/-- While the receiver is idle a segment with FIR = 0 is lost. -/
theorem Lost.noFir {s : State} {code h : Byte} {data : Bytes} (hs : Lost code s) (hfir : tphFir h = false) :
    ∃ t, tpReceive (s.setIn (h :: data)) = .next t ∧ Lost 0x21 t :=
  ⟨_, tpReceive_noFir rfl hfir hs.rxActive, rfl, rfl, hs.rxActive, hs.rxLen⟩

/-- And so is every later one. -/
theorem Lost.feed_take {s : State} {code : Byte} {ps : List Bytes} {k : Nat} (hs : Lost code s)
    (hps : ∀ p ∈ ps, p ≠ [] ∧ startsMessage p = false) (hk : k ≤ ps.length) :
    ∃ v, feed (ps.take k) s = .next v ∧ Lost (if k = 0 then code else 0x21) v := by
  induction k generalizing s code ps with
  | zero => exact ⟨s, rfl, hs⟩
  | succ k ih =>
    cases ps with
    | nil => cases hk
    | cons p ps =>
      obtain ⟨⟨hne, hstart⟩, hrest⟩ := List.forall_mem_cons.1 hps
      obtain ⟨h, data, rfl⟩ := List.exists_cons_of_ne_nil hne
      obtain ⟨u, hu, lost⟩ := hs.noFir (data := data) hstart
      obtain ⟨v, hv, later⟩ := ih lost hrest (Nat.le_of_succ_le_succ hk)
      rw [ite_self] at later
      exact ⟨v, (feed_cons_next hu).trans hv, later⟩

/-- Settles O37: the mismatch leaves the unit idle, and there every later segment is lost. -/
theorem tpMismatchLosesMessage : Obligations.TpMismatchLosesMessage := by
  intro s h d ps hact hfir hseq hps k hk
  have refused := tpReceive_mismatch (s := s.setIn (h :: d)) rfl hfir hact hseq
  have lost : Lost 0x20 (((((s.setIn (h :: d)).setOut []).setStale false).setRx false 0).failWith
      ⟨.sequenceMismatch, 0, s.rxExpect.toNat, h.toNat % 64⟩ .none) := ⟨rfl, rfl, rfl, rfl⟩
  obtain ⟨v, hv, status, outBuf, rxActive, rxLen⟩ := lost.feed_take hps hk
  exact ⟨v, (feed_cons_next refused).trans hv, status, outBuf, rxActive, rxLen⟩

/-! ### Messages are not mixed (R127 item 5) -/

/-- The payloads fed so far end in the segments of one message, whose bytes are given. -/
def EndsInMessage (ps : List Bytes) (bytes : Bytes) : Prop :=
  ∃ (before : List Bytes) (first : Bytes) (later : List Bytes), ps = before ++ first :: later ∧
    startsMessage first = true ∧ (∀ p ∈ later, startsMessage p = false) ∧
    bytes = (first :: later).flatMap segmentPayload

theorem endsInMessage_first {p : Bytes} (hp : startsMessage p = true) (ps : List Bytes) :
    EndsInMessage (ps ++ [p]) (segmentPayload p) :=
  ⟨ps, p, [], rfl, hp, nofun, (List.append_nil _).symm⟩

theorem EndsInMessage.append {ps : List Bytes} {bytes : Bytes} (h : EndsInMessage ps bytes) {p : Bytes}
    (hp : startsMessage p = false) : EndsInMessage (ps ++ [p]) (bytes ++ segmentPayload p) := by
  obtain ⟨before, first, later, rfl, hfirst, hlater, rfl⟩ := h
  refine ⟨before, first, later ++ [p], by simp, hfirst, fun x hx => ?_, by simp⟩
  rcases List.mem_append.1 hx with hx | hx
  · exact hlater x hx
  · exact List.mem_singleton.1 hx ▸ hp

/-- A reassembly in progress holds the bytes of the message that the payloads fed so far end in. -/
def Collects (ps : List Bytes) (s : State) : Prop :=
  s.rxActive = true → ∃ old, EndsInMessage ps old ∧ HoldsMessage s old

/-- The end of TP.RX keeps the segment with the message it belongs to, or delivers that message. -/
theorem tpAccept_collects {s t : State} {h : Byte} {data old : Bytes} {ps : List Bytes} (hold : HoldsMessage s old)
    (message : EndsInMessage ps (old ++ data)) (e : tpAccept h data s = .next t) :
    Collects ps t ∧ (t.status = 0x00 → EndsInMessage ps t.outBuf) := by
  rcases Nat.lt_or_ge cfg.rxBufMax (s.rxLen.toNat + data.length) with hover | hcap
  · obtain rfl := next_inj ((tpAccept_overflow hover).symm.trans e)
    exact ⟨nofun, fun ok => absurd ok (by decide : Err.overflow.code ≠ 0x00)⟩
  · rw [hold.rxLen] at hcap
    cases hfin : tphFin h with
    | true =>
      obtain rfl := next_inj ((tpAccept_fin hold hcap hfin).symm.trans e)
      exact ⟨nofun, fun _ => message⟩
    | false =>
      obtain rfl := next_inj ((tpAccept_pending hold hcap hfin).symm.trans e)
      exact ⟨fun _ => ⟨_, message, { hold.keepSegment (h := h) hcap with }⟩,
        fun ok => absurd ok (by decide : Done.pending.code ≠ 0x00)⟩

/-- Every payload keeps to it: a first segment begins its message, a later one joins the message in progress. -/
theorem Collects.tpReceive {ps : List Bytes} {s t : State} {p : Bytes} (hs : Collects ps s)
    (e : tpReceive (s.setIn p) = .next t) :
    Collects (ps ++ [p]) t ∧ (t.status = 0x00 → EndsInMessage (ps ++ [p]) t.outBuf) := by
  rcases tpReceive_cases e with
    ⟨hin, rfl⟩ | ⟨h, data, hin, ⟨hfir, hacc⟩ | ⟨-, hidle, rfl⟩ | ⟨-, -, -, rfl⟩ | ⟨hfir, hact, -, hacc⟩⟩ <;>
    obtain rfl : p = _ := hin
  · refine ⟨fun hact => ?_, fun ok => absurd ok (by decide : Done.linkOnly.code ≠ 0x00)⟩
    obtain ⟨old, message, hold⟩ := hs hact
    exact ⟨old, List.append_nil old ▸ message.append (p := []) rfl, { hold with }⟩
  · exact tpAccept_collects (holdsMessage_nil ..) (endsInMessage_first (p := h :: data) hfir ps) hacc
  · exact ⟨fun hact => absurd (hidle.symm.trans hact) nofun,
      fun ok => absurd ok (by decide : Err.noFir.code ≠ 0x00)⟩
  · exact ⟨nofun, fun ok => absurd ok (by decide : Err.sequenceMismatch.code ≠ 0x00)⟩
  · obtain ⟨old, message, hold⟩ := hs hact
    have held : HoldsMessage (((s.setIn (h :: data)).setOut []).setStale false) old := { hold with }
    have joined : EndsInMessage (ps ++ [h :: data]) (old ++ data) := message.append (p := h :: data) hfir
    exact tpAccept_collects held joined hacc

/-- A run whose last TP.RX gives OK leaves in OUT the message its payloads end in. -/
theorem Collects.feed {pre ps : List Bytes} {s t : State} (hs : Collects pre s) (e : feed ps s = .next t) (hne : ps ≠ [])
    (ok : t.status = 0x00) : EndsInMessage (pre ++ ps) t.outBuf := by
  induction ps generalizing pre s with
  | nil => exact absurd rfl hne
  | cons p ps ih =>
    obtain ⟨u, hu, rest⟩ := feed_cons_ends e
    obtain ⟨collects, delivered⟩ := hs.tpReceive hu
    cases ps with
    | nil =>
      obtain rfl := next_inj rest
      exact delivered ok
    | cons p' ps =>
      rw [List.append_cons]
      exact ih collects rest (List.cons_ne_nil _ _)

/-- Settles O38: with no reassembly in progress nothing is held that was not fed. -/
theorem tpNeverMixesMessages : Obligations.TpNeverMixesMessages := by
  intro s t ps hidle e hne ok
  have collects : Collects [] s := fun hact => absurd (hidle.symm.trans hact) nofun
  exact collects.feed e hne ok

end Sys2Proof.Machine

/-! What APP.DEC gives back of a fragment APP.ENC.RESP built (spec/43_application.md R156). -/

namespace Sys2Proof.Machine

/-! ### What the encoder let pass (R142) -/

/-- R142 accepts a block or refuses it. -/
theorem blockAccepted_or_refused (b : DataBlock) :
    blockAccepted b ∨ ∃ code expected actual, BlockRefused b code expected actual := by
  obtain ⟨g, v, form, points⟩ := b
  cases hd : lookupObj g v with
  | none => exact .inr ⟨_, _, _, .unknownObject hd⟩
  | some d =>
    cases form with
    | all => exact .inr ⟨_, _, _, .formAll hd rfl⟩
    | index idx =>
      by_cases hk : d.kind = .packed
      · exact .inr ⟨_, _, _, .packedIndex hd rfl hk⟩
      by_cases hcount : points.length = idx.length
      · exact .inl ⟨d, hd, hk, hcount⟩
      · exact .inr ⟨_, _, _, .countOfIndex hd rfl hk hcount⟩
    | range start stop =>
      rcases Nat.lt_or_ge stop.toNat start.toNat with hback | hle
      · exact .inr ⟨_, _, _, .backwards hd rfl hback⟩
      by_cases hcount : points.length = stop.toNat - start.toNat + 1
      · exact .inl ⟨d, hd, hle, hcount⟩
      · exact .inr ⟨_, _, _, .countOfRange hd rfl hle hcount⟩

/-- A block that passes the checks is one R142 accepts. -/
theorem blockAccepted_of_dataBlockFail {j : Nat} {b : DataBlock} (h : dataBlockFail j b = none) : blockAccepted b := by
  rcases blockAccepted_or_refused b with accepted | ⟨code, expected, actual, refused⟩
  · exact accepted
  · obtain ⟨e, -, hfail⟩ := dataBlockFail_refused (j := j) refused
    cases hfail.symm.trans h

theorem blockAccepted_of_checkDataBlocks {j : Nat} {blocks : List DataBlock} (h : checkDataBlocks j blocks = none) :
    ∀ b ∈ blocks, blockAccepted b := by
  induction blocks generalizing j with
  | nil => nofun
  | cons b blocks ih =>
    simp only [checkDataBlocks] at h
    split at h
    case h_1 => cases h
    case h_2 hb => exact List.forall_mem_cons.2 ⟨blockAccepted_of_dataBlockFail hb, ih h⟩

/-- The data area of a list of indices has two bytes at least for each. -/
theorem length_le_indexData (d : Descriptor) {idx : List U16} {points : List PointEntry} (h : points.length = idx.length) :
    idx.length ≤ ((idx.zip points).flatMap fun x => le16 x.1 ++ encPoint d x.2).length := by
  have entries : ((idx.zip points).map fun x => (le16 x.1 ++ encPoint d x.2).length).length = idx.length := by
    rw [List.length_map, List.length_zip, h, Nat.min_self]
  rw [List.length_flatMap, ← entries]
  refine List.length_le_sum_of_one_le _ fun n hn => ?_
  obtain ⟨x, -, rfl⟩ := List.mem_map.1 hn
  rw [List.length_append, le16_length]
  omega

/-- An index list whose block fits a fragment has at most 65535 entries (R137). -/
theorem fits_of_encDataBlock_length {b : DataBlock} (h : blockAccepted b) (hlen : (encDataBlock b).length ≤ cfg.apduMax) :
    b.form.fits = true := by
  obtain ⟨g, v, form, points⟩ := b
  obtain ⟨d, hd, hform⟩ := h
  cases form with
  | all | range _ _ => rfl
  | index idx =>
    obtain ⟨hk, hcount⟩ := hform
    have area := length_le_indexData d (points := points) hcount
    have hmax : cfg.apduMax = 4096 := rfl
    rw [encDataBlock_index hd idx points hk, List.length_append, hmax] at hlen
    exact decide_eq_true (by omega)

theorem length_encDataBlock_le {b : DataBlock} {blocks : List DataBlock} (hb : b ∈ blocks) :
    (encDataBlock b).length ≤ (blocks.flatMap encDataBlock).length := by
  simpa using ((List.singleton_sublist.2 hb).flatMap encDataBlock).length_le

/-! ### The fragment read back -/

/-- APP.ENC.RESP ends OK only with a fragment of accepted blocks, each a complete block to the decoder. -/
theorem appRespond_ok {a : RespArgs} {s t : State} (run : appRespond a s = .next t) (ok : t.status = 0x00) :
    t.outBuf = [apcByte a.ctrl, 0x81, a.iin1, a.iin2] ++ a.blocks.flatMap encDataBlock ∧
      ∀ b ∈ a.blocks, BlockReads (encDataBlock b) (blockRecords b) := by
  rcases emitFragment_cases run with ⟨f, -, rfl⟩ | ⟨-, -, rfl⟩ | ⟨passed, fits, rfl⟩
  · have error := f.err.le_code
    rw [show f.err.code = 0x00 from ok] at error
    exact absurd error (by decide)
  · exact absurd ok (by decide : Err.encTooLong.code ≠ 0x00)
  · refine ⟨rfl, fun b hb => ?_⟩
    have accepted := blockAccepted_of_checkDataBlocks passed b hb
    have short := length_encDataBlock_le hb
    rw [List.length_append] at fits
    exact blockReads_encDataBlock accepted (fits_of_encDataBlock_length accepted (by omega))

/-- Settles O44: the header gives back the operands, and the blocks are complete ones. -/
theorem appRoundTrip : Obligations.AppRoundTrip := by
  intro a s t run ok
  obtain ⟨fragment, reads⟩ := appRespond_ok run ok
  have blocks : ∀ b ∈ a.blocks.map (fun b => (encDataBlock b, blockRecords b)), BlockReads b.1 b.2 := by
    simpa using reads
  have header := decHeader_response (apcByte a.ctrl) a.iin1 a.iin2 (a.blocks.flatMap encDataBlock)
  rw [← apcBits_eq_controlBits, apcBits_apcByte] at header
  have read := appDecode_blocks (s := t.setIn t.outBuf) (head := [apcByte a.ctrl, 0x81, a.iin1, a.iin2]) blocks (by simp)
    (by rw [State.setIn_inBuf, fragment, List.flatMap_map]) (by rw [State.setIn_inBuf, fragment]; exact header)
  rw [List.flatMap_map] at read
  exact read

end Sys2Proof.Machine

/-! LINK.DEC gives back what LINK.ENC framed (spec/41_link.md R106). -/

namespace Sys2Proof.Machine

/-- LINK.ENC on a payload that fits leaves its frame in OUT. -/
theorem linkEncode_setIn {a : LinkAddr} {p : Bytes} (s : State) (hp : p.length ≤ cfg.linkPayloadMax) :
    linkEncode a (s.setIn p) = .next (((s.setIn p).setOut (frame a p)).finish .ok .none) :=
  linkEncode_ok (s := s.setIn p) hp

/-- Settles O25: OUT is the frame, which LINK.DEC reads whatever follows it. -/
theorem linkRoundTrip : Obligations.LinkRoundTrip := by
  intro a p t s hp
  refine ⟨_, linkEncode_setIn s hp, rfl, ?_⟩
  have decoded := linkDecode_frame (s := s.setIn (frame a p ++ t)) rfl hp
  rw [← frame_length a p] at decoded
  exact decoded

end Sys2Proof.Machine

/-! Results left by an operation (log entry 4). -/

namespace Sys2Proof.Machine

/-- What an instruction that names no result runs is none of the operations with results. -/
theorem runsNone_of_namesNoResult {i : Instr} (h : namesNoResult i = true) :
    (!(runsAppDec i || runsLinkDec i || runsTpSeg i)) = true := by
  simp only [namesNoResult] at h
  split at h
  · cases h
  · cases h
  · cases h
  · exact h

/-- But for CRC.RD, CRC.CALC and CRC.CHK the classes say whether an operation names results. -/
theorem namesNoResult_operation {o : Operation} (h : commandOnly o.instr = false) :
    namesNoResult o.instr = !(runsAppDec o.instr || runsLinkDec o.instr || runsTpSeg o.instr) := by
  cases o with
  | crcRd | crcCalc | crcChk => cases h
  | _ => rfl

/-- The operation of an instruction that names no result names none. -/
theorem namesNoResult_runOf {i : Instr} (h : namesNoResult i = true) : namesNoResult (runOf i).op.instr = true := by
  have run := runsAs_runOf i
  rcases run.own_or_item with own | item
  · rwa [← own]
  · rw [namesNoResult_operation item, ← run.runsAppDec_eq, ← run.runsLinkDec_eq, ← run.runsTpSeg_eq]
    exact runsNone_of_namesNoResult h

theorem tpAccept_results {s t : State} {b : Byte} {data : Bytes} (e : tpAccept b data s = .next t) : t.results = .none := by
  rcases tpAccept_cases e with ⟨-, rfl⟩ | ⟨u, -, -, ⟨-, bs, -, rfl⟩ | ⟨-, rfl⟩⟩ <;> rfl

theorem tpReceive_results {s t : State} (e : tpReceive s = .next t) : t.results = .none := by
  rcases tpReceive_cases e with ⟨-, rfl⟩ | ⟨b, data, -, ⟨-, hacc⟩ | ⟨-, -, rfl⟩ | ⟨-, -, -, rfl⟩ | ⟨-, -, -, hacc⟩⟩
  · rfl
  · exact tpAccept_results hacc
  · rfl
  · rfl
  · exact tpAccept_results hacc

theorem linkEncode_results {a : LinkAddr} {s t : State} (e : linkEncode a s = .next t) : t.results = .none := by
  rcases linkEncode_cases e with ⟨-, rfl⟩ | ⟨-, rfl⟩ <;> rfl

theorem emitFragment_results {bad : Option Fail} {fragment : Bytes} {s t : State}
    (e : emitFragment bad fragment s = .next t) : t.results = .none := by
  rcases emitFragment_cases e with ⟨f, -, rfl⟩ | ⟨-, -, rfl⟩ | ⟨-, -, rfl⟩ <;> rfl

/-- An operation that names no result ends without one. -/
theorem exec_operation_results {o : Operation} {s t : State} (e : exec o.instr s = .next t)
    (h : namesNoResult o.instr = true) : t.results = .none := by
  cases o with
  | crcClr | crcUpd _ | tpRst | appEncConfirm _ | illegal _ => exact next_inj e ▸ rfl
  | crcRd | crcCalc | crcChk | linkDec | tpSeg _ | appDec => cases h
  | linkEnc a => exact linkEncode_results e
  | tpRx => exact tpReceive_results e
  | appEncRead _ | appEncWrite _ _ | appEncResp _ => exact emitFragment_results e

/-- Settles O14: the instruction's operation names no result either, and ends without one. -/
theorem noResultsLeftOver : Obligations.NoResultsLeftOver := by
  intro i s t e h
  rw [(runsAs_runOf i).exec_eq] at e
  exact exec_operation_results e (namesNoResult_runOf h)

end Sys2Proof.Machine

/-! The algebra of the CRC (spec/40_crc.md R82, R86, R88): the step is linear and loses nothing, from which come the table
form, the detection of a changed byte, and the residue; and the stream operations over IN. -/

namespace Sys2Proof.Machine

/-! ### Linearity (R88 items 1 and 2) -/

/-- The polynomial added on both sides is gone. -/
theorem xor_xor_xor_self (x y p : U16) : (x ^^^ p) ^^^ (y ^^^ p) = x ^^^ y := by
  rw [BitVec.xor_comm y, BitVec.xor_assoc, ← BitVec.xor_assoc p, BitVec.xor_self, BitVec.zero_xor]

theorem crcBit_xor (x y : U16) : crcBit (x ^^^ y) = crcBit x ^^^ crcBit y := by
  rw [crcBit_eq, crcBit_eq x, crcBit_eq y, BitVec.getLsbD_xor, BitVec.ushiftRight_xor_distrib]
  cases x.getLsbD 0 <;> cases y.getLsbD 0
  · rfl
  · exact BitVec.xor_assoc ..
  · show x >>> 1 ^^^ y >>> 1 ^^^ 0xA6BC = x >>> 1 ^^^ 0xA6BC ^^^ y >>> 1
    ac_rfl
  · exact (xor_xor_xor_self (x >>> 1) (y >>> 1) 0xA6BC).symm

theorem crcShifts_xor (n : Nat) (x y : U16) : crcShifts n (x ^^^ y) = crcShifts n x ^^^ crcShifts n y := by
  induction n generalizing x y with
  | zero => rfl
  | succ n ih => simp only [crcShifts, crcBit_xor, ih]

/-- The step is linear in the register and the byte together. -/
theorem crcStep_xor (a a' : U16) (b b' : Byte) : crcStep (a ^^^ a') (b ^^^ b') = crcStep a b ^^^ crcStep a' b' := by
  rw [crcStep, crcStep, crcStep, ← crcShifts_xor, BitVec.setWidth_xor]
  congr 1
  ac_rfl

theorem crcStep_zero : crcStep 0x0000 0x00 = 0x0000 := by decide

/-- The initial register is 0, so a leading zero byte leaves it. -/
theorem crc16_zero_cons (s : Bytes) : crc16 (0x00 :: s) = crc16 s := by
  rw [crc16_eq_foldl, crc16_eq_foldl, List.foldl_cons, crcStep_zero]

/-! ### The table form (R82) -/

/-- Shifts with only zeros falling out are one shift. -/
theorem crcShifts_of_low_zeros {n : Nat} {x : U16} (h : ∀ i < n, x.getLsbD i = false) : crcShifts n x = x >>> n := by
  induction n generalizing x with
  | zero => rfl
  | succ n ih =>
    have first : crcBit x = x >>> 1 := by rw [crcBit_eq, h 0 n.succ_pos]; rfl
    have later : ∀ i < n, (x >>> 1).getLsbD i = false := fun i hi => by
      rw [BitVec.getLsbD_ushiftRight, Nat.add_comm]; exact h (i + 1) (Nat.succ_lt_succ hi)
    rw [crcShifts, first, ih later, ← BitVec.shiftRight_add, Nat.add_comm]

theorem crcStep_zero_left (b : Byte) : crcStep 0x0000 b = crcShifts 8 (b.setWidth 16) :=
  congrArg (crcShifts 8) BitVec.zero_xor

/-- A 16-bit value is its high byte in place and its low byte. -/
theorem high_xor_low (x : U16) : (x >>> 8) <<< 8 ^^^ (x.setWidth 8).setWidth 16 = x := by
  ext i hi
  rcases Nat.lt_or_ge i 8 with low | high
  · simp [low, BitVec.getLsbD_eq_getElem hi]
  · simp [Nat.not_lt.2 high, Nat.add_sub_cancel' high, BitVec.getLsbD_eq_getElem hi]

/-- The high byte of the register falls through the eight shifts; the low byte and the given one select the table entry. -/
theorem crcStep_eq_table (acc : U16) (b : Byte) :
    crcStep acc b = (acc >>> 8) ^^^ crcStep 0x0000 (acc.setWidth 8 ^^^ b) := by
  have high : crcShifts 8 ((acc >>> 8) <<< 8) = acc >>> 8 := by
    rw [crcShifts_of_low_zeros fun i hi => by simp [hi]]
    ext i hi
    simpa using BitVec.lt_of_getLsbD (x := acc) (i := 8 + i)
  have parts : acc ^^^ b.setWidth 16 = (acc >>> 8) <<< 8 ^^^ (acc.setWidth 8 ^^^ b).setWidth 16 := by
    rw [BitVec.setWidth_xor, ← BitVec.xor_assoc, high_xor_low]
  rw [crcStep, parts, crcShifts_xor, high, crcStep_zero_left]

/-- Settles O19: the table form, and its entries by running the step. -/
theorem crcTableForm : Obligations.CrcTableForm :=
  ⟨crcStep_eq_table, by decide⟩

/-! ### Nothing is lost (R88 item 3) -/

/-- The polynomial has its top bit, which the shift of any register leaves 0. -/
theorem crcBit_eq_zero {x : U16} (h : crcBit x = 0) : x = 0 := by
  rw [crcBit_eq] at h
  split at h
  case isTrue =>
    have top := congrArg (BitVec.getLsbD · 15) h
    simp at top
  case isFalse lsb =>
    ext i hi
    cases i with
    | zero => simpa using lsb
    | succ i =>
      have shifted := congrArg (BitVec.getLsbD · i) h
      simpa [Nat.add_comm 1, BitVec.getLsbD_eq_getElem hi] using shifted

theorem crcBit_injective : Function.Injective crcBit := by
  intro x y h
  rw [← BitVec.xor_eq_zero_iff]
  apply crcBit_eq_zero
  rw [crcBit_xor, h, BitVec.xor_self]
  rfl

theorem crcShifts_injective (n : Nat) : Function.Injective (crcShifts n) := by
  rw [funext (crcShifts_eq_iterate n)]
  exact crcBit_injective.iterate n

theorem crcStep_left_inj {a a' : U16} {b : Byte} : crcStep a b = crcStep a' b ↔ a = a' := by
  rw [crcStep, crcStep, (crcShifts_injective 8).eq_iff, BitVec.xor_left_inj]

theorem crcStep_right_inj {a : U16} {b b' : Byte} : crcStep a b = crcStep a b' ↔ b = b' := by
  rw [crcStep, crcStep, (crcShifts_injective 8).eq_iff, BitVec.xor_right_inj, ← BitVec.toNat_inj,
    BitVec.toNat_setWidth_of_le (by decide), BitVec.toNat_setWidth_of_le (by decide), BitVec.toNat_inj]

theorem crcFold_inj {a a' : U16} {s : Bytes} : crcFold a s = crcFold a' s ↔ a = a' := by
  induction s generalizing a a' with
  | nil => rfl
  | cons b s ih => exact ih.trans crcStep_left_inj

/-- Two strings that differ in one byte have different CRCs. -/
theorem crc16_middle_inj {p s : Bytes} {b b' : Byte} : crc16 (p ++ b :: s) = crc16 (p ++ b' :: s) ↔ b = b' := by
  have after (x : Byte) : crcFold cfg.crcInit (p ++ x :: s) = crcFold (crcStep (crcFold cfg.crcInit p) x) s :=
    List.foldl_append
  rw [crc16, crc16, BitVec.xor_left_inj, after, after, crcFold_inj, crcStep_right_inj]

/-- Flipping a bit of a byte changes it. -/
theorem xor_bit_ne (b : Byte) (k : Nat) : b ^^^ (1#8 <<< (k % 8)) ≠ b := by
  have mask : ∀ m < 8, 1#8 <<< m ≠ 0#8 := by decide
  exact fun h => mask _ (Nat.mod_lt k (by decide)) ((BitVec.xor_right_inj b).1 (h.trans BitVec.xor_zero.symm))

theorem crc16_flipBit_ne {s : Bytes} {k : Nat} (hk : k < 8 * s.length) : crc16 (flipBit s k) ≠ crc16 s := by
  obtain ⟨p, b, t, hs, -, flipped⟩ := List.exists_of_modify (fun b : Byte => b ^^^ (1#8 <<< (k % 8)))
    (show k / 8 < s.length by omega)
  rw [flipBit, flipped, hs, Ne, crc16_middle_inj]
  exact xor_bit_ne b k

/-! ### The residue (R88 item 4) -/

/-- The register over two bytes, by the table form. -/
theorem crcFold_le16 (r c : U16) : crcFold r (le16 c) = crcStep (crcStep r (c.setWidth 8)) ((c >>> 8).setWidth 8) := rfl

/-- The register run over its own two bytes ends at 0. -/
theorem crcFold_le16_self (r : U16) : crcFold r (le16 r) = 0 := by
  have first : crcStep r (r.setWidth 8) = r >>> 8 := by
    rw [crcStep_eq_table, BitVec.xor_self]
    exact (congrArg (r >>> 8 ^^^ ·) crcStep_zero).trans BitVec.xor_zero
  have second : crcStep (r >>> 8) ((r >>> 8).setWidth 8) = r >>> 8 >>> 8 := by
    rw [crcStep_eq_table, BitVec.xor_self]
    exact (congrArg (r >>> 8 >>> 8 ^^^ ·) crcStep_zero).trans BitVec.xor_zero
  rw [crcFold_le16, first, second, ← BitVec.shiftRight_add]
  exact BitVec.ushiftRight_eq_zero (Nat.le_refl 16)

/-- By linearity the register's own bytes cancel. -/
theorem crcFold_le16_xor (r c : U16) : crcFold r (le16 (r ^^^ c)) = crcFold 0 (le16 c) := by
  have parted : crcFold (r ^^^ 0) (le16 (r ^^^ c)) = crcFold r (le16 r) ^^^ crcFold 0 (le16 c) := by
    simp only [crcFold_le16, BitVec.ushiftRight_xor_distrib, BitVec.setWidth_xor, crcStep_xor]
  rw [crcFold_le16_self] at parted
  simpa using parted

theorem crcFold_append_crc16 (s : Bytes) : crcFold 0x0000 (s ++ le16 (crc16 s)) = 0x66C5 := by
  have residue : crcFold 0x0000 (le16 cfg.crcXorOut) = 0x66C5 := by
    have first : crcStep 0x0000 0xFF = 0x1235 := by decide
    have second : crcStep 0x1235 0xFF = 0x66C5 := by rw [crcStep_eq_table]; decide
    have low : cfg.crcXorOut.setWidth 8 = 0xFF := by decide
    have high : (cfg.crcXorOut >>> 8).setWidth 8 = 0xFF := by decide
    rw [crcFold_le16, low, high, first, second]
  rw [← residue, ← crcFold_le16_xor (crcFold cfg.crcInit s)]
  exact List.foldl_append

/-- Settles O18: by linearity and injectivity of the step. -/
theorem crcAlgebra : Obligations.CrcAlgebra :=
  ⟨⟨crcStep_zero, crc16_zero_cons⟩, crcStep_xor, fun _ _ => crc16_flipBit_ne, crcFold_append_crc16⟩

/-! ### The stream operations over IN (R86) -/

/-- An operation that ends hands its state to the next. -/
theorem runAll_cons_next {i : Instr} {is : List Instr} {s t : State} (h : exec i s = .next t) :
    runAll (i :: is) s = runAll is t := by
  simp only [runAll, h]

/-- CRC.UPD byte by byte, then CRC.RD, after an operation that ended OK. -/
theorem runAll_crcUpd_crcRd (bs : Bytes) (s : State) :
    runAll (bs.map .crcUpd ++ [.crcRd]) (s.endedOk .none) =
      .next ((s.setCrcAcc (bs.foldl crcStep s.crcAcc)).endedOk (.crc (bs.foldl crcStep s.crcAcc ^^^ 0xFFFF))) := by
  induction bs generalizing s with
  | nil => rw [List.map_nil, List.nil_append, runAll_cons_next (exec_crcRd _)]; rfl
  | cons b bs ih =>
    rw [List.map_cons, List.cons_append, runAll_cons_next (exec_crcUpd ..)]
    exact ih (s.setCrcAcc (crcStep s.crcAcc b))

/-- Settles O22: CRC.CLR leaves the initial register, and CRC.RD the final XOR of what CRC.UPD folded. -/
theorem crcStreamEqualsWhole : Obligations.CrcStreamEqualsWhole := by
  refine fun s => ⟨?_, exec_crcCalc s⟩
  rw [runAll_cons_next (exec_crcClr s), runAll_crcUpd_crcRd]
  rfl

end Sys2Proof.Machine

/-! One bit of a frame flipped (spec/41_link.md R107): a part of the frame that is under a CRC no longer agrees with it, and every
other part is read as before. -/

namespace Sys2Proof.Machine

/-! ### Reading a string with one bit flipped -/

section
variable {s : Bytes} {k i n : Nat}

@[simp] theorem flipBit_length (s : Bytes) (k : Nat) : (flipBit s k).length = s.length := List.length_modify ..

theorem getElem?_flipBit (s : Bytes) (k i : Nat) :
    (flipBit s k)[i]? = s[i]?.map fun b => if k / 8 = i then b ^^^ (1#8 <<< (k % 8)) else b :=
  List.getElem?_modify ..

theorem byteAt_flipBit_other (h : k / 8 ≠ i) : byteAt (flipBit s k) i = byteAt s i := by
  simp [byteAt, List.getD_eq_getElem?_getD, getElem?_flipBit, h]

theorem byteAt_flipBit_ne (h : k / 8 < s.length) : byteAt (flipBit s k) (k / 8) ≠ byteAt s (k / 8) := by
  have flipped : byteAt (flipBit s k) (k / 8) = s[k / 8] ^^^ (1#8 <<< (k % 8)) := by
    rw [byteAt, List.getD_eq_getElem?_getD, getElem?_flipBit, List.getElem?_eq_getElem h]
    simp
  rw [flipped, byteAt, List.getD_eq_getElem _ _ h]
  exact xor_bit_ne _ k

theorem word16At_flipBit_other (h : k / 8 < i ∨ i + 2 ≤ k / 8) : word16At (flipBit s k) i = word16At s i := by
  rw [word16At, word16At, byteAt_flipBit_other (by omega), byteAt_flipBit_other (by omega)]

/-- The two bytes of a word are determined by it. -/
theorem iinWord_inj {a b a' b' : Byte} (h : iinWord a b = iinWord a' b') : a = a' ∧ b = b' := by
  rw [iinWord_eq_sum, iinWord_eq_sum, ← BitVec.toNat_inj, BitVec.toNat_ofNat, BitVec.toNat_ofNat] at h
  have ha := a.isLt
  have hb := b.isLt
  have ha' := a'.isLt
  have hb' := b'.isLt
  constructor <;> apply BitVec.eq_of_toNat_eq <;> omega

theorem word16At_flipBit_ne (hi : i ≤ k / 8) (hi2 : k / 8 < i + 2) (h : k / 8 < s.length) :
    word16At (flipBit s k) i ≠ word16At s i := by
  intro same
  obtain ⟨low, high⟩ := iinWord_inj same
  rcases Nat.eq_or_lt_of_le hi with rfl | hlt
  · exact byteAt_flipBit_ne h low
  · have second : i + 1 = k / 8 := by omega
    exact byteAt_flipBit_ne h (second ▸ high)

theorem getElem?_slice (s : Bytes) (i n j : Nat) : (slice s i n)[j]? = if j < n then s[i + j]? else none := by
  rw [slice, List.getElem?_take, List.getElem?_drop]

theorem slice_flipBit_other (h : k / 8 < i ∨ i + n ≤ k / 8) : slice (flipBit s k) i n = slice s i n := by
  refine List.ext_getElem? fun j => ?_
  rw [getElem?_slice, getElem?_slice, getElem?_flipBit]
  split
  · have other : k / 8 ≠ i + j := by omega
    simp [other]
  · rfl

/-- A run of bytes that holds the flipped bit is the run with that bit flipped. -/
theorem slice_flipBit (h : i ≤ k / 8) : slice (flipBit s k) i n = flipBit (slice s i n) (k - 8 * i) := by
  refine List.ext_getElem? fun j => ?_
  have place : (k - 8 * i) / 8 = j ↔ k / 8 = i + j := by omega
  have bit : (k - 8 * i) % 8 = k % 8 := by omega
  rw [getElem?_flipBit, getElem?_slice, getElem?_slice, getElem?_flipBit]
  simp only [place, bit]
  split <;> rfl

/-- Bytes followed by their CRC no longer are when a bit of them, or of the CRC, is flipped. -/
theorem crc16_slice_flipBit_ne (good : crc16 (slice s i n) = word16At s (i + n)) (hi : i ≤ k / 8)
    (hn : k / 8 < i + n + 2) (h : k / 8 < s.length) :
    crc16 (slice (flipBit s k) i n) ≠ word16At (flipBit s k) (i + n) := by
  rcases Nat.lt_or_ge (k / 8) (i + n) with bytes | crc
  · have inside : k - 8 * i < 8 * (slice s i n).length := by
      rw [slice, List.length_take, List.length_drop]; omega
    rw [word16At_flipBit_other (.inl bytes), ← good, slice_flipBit hi]
    exact crc16_flipBit_ne inside
  · rw [slice_flipBit_other (.inr crc), good]
    exact (word16At_flipBit_ne crc hn h).symm

end

/-! ### The frame under a flipped bit -/

section
variable {a : LinkAddr} {p : Bytes} {k : Nat}

theorem encBlocks_blockCount_length (p : Bytes) :
    (encBlocks (blockCount p.length) p).length = p.length + 2 * blockCount p.length :=
  encBlocks_length _ _ (le_blockMax_mul_blockCount _)

/-- No data block of a frame is bad: the first bad one would be an error of LINK.DEC. -/
theorem not_blockBad_frame {j : Nat} (hj : j < blockCount p.length) : ¬blockBad (frame a p) p.length j := by
  have whole : decBlocks (frame a p) (blockCount p.length) p.length 10 = .ok p := by
    have read := decBlocks_encBlocks (pre := frameHeader a p.length) (t := []) (le_blockMax_mul_blockCount p.length)
    rwa [List.append_nil] at read
  induction j using Nat.strong_induction_on with
  | _ j earlier =>
    intro bad
    have error := decBlocks_firstBad (Nat.zero_add _) (Nat.zero_le j) hj bad fun l hl => earlier l hl (hl.trans hj)
    cases error.symm.trans whole

/-- A bit behind the header: the block it is in is the only bad one. -/
theorem decBlocks_flip (hk : k / 8 < (frame a p).length) (h : 10 ≤ k / 8) :
    decBlocks (flipBit (frame a p) k) (blockCount p.length) p.length 10 =
      .error (blockFail (flipBit (frame a p) k) p.length ((k / 8 - 10) / 18)) := by
  have extent : k / 8 < 10 + p.length + 2 * blockCount p.length := hk.trans_eq (frame_length a p)
  have count : blockCount p.length = (p.length + 15) / 16 := rfl
  have hj : (k / 8 - 10) / 18 < blockCount p.length := by omega
  have bad : blockBad (flipBit (frame a p) k) p.length ((k / 8 - 10) / 18) :=
    crc16_slice_flipBit_ne (not_not.1 (not_blockBad_frame hj)) (by simp only [blockOffset]; omega)
      (by simp only [blockOffset, blockSize]; omega) hk
  have earlier : ∀ l, l < (k / 8 - 10) / 18 → ¬blockBad (flipBit (frame a p) k) p.length l := by
    intro l hl
    have before : blockOffset l + blockSize p.length l + 2 ≤ k / 8 := by simp only [blockOffset, blockSize]; omega
    rw [blockBad, slice_flipBit_other (.inr (by omega)), word16At_flipBit_other (.inr before)]
    exact not_blockBad_frame (hl.trans hj)
  exact decBlocks_firstBad (Nat.zero_add _) (Nat.zero_le _) hj bad earlier

variable (hp : p.length ≤ cfg.linkPayloadMax)
include hp

theorem checkHeader_frame : checkHeader (frame a p) = .ok p.length :=
  checkHeader_frameHeader a hp (encBlocks_blockCount_length p).ge

/-- The header of a frame is right. -/
theorem headerIntact_frame : HeaderIntact (frame a p) := (checkHeader_ok (checkHeader_frame hp)).1

/-- A bit behind the header leaves the header right. -/
theorem checkHeader_flip_behind (h : 10 ≤ k / 8) : checkHeader (flipBit (frame a p) k) = .ok p.length := by
  have first10 : (flipBit (frame a p) k).take 10 = frameHeader a p.length := slice_flipBit_other (i := 0) (.inr h)
  have extent : (flipBit (frame a p) k).length = 10 + (p.length + 2 * blockCount p.length) := by
    rw [flipBit_length, frame_eq, List.length_append, frameHeader_length, encBlocks_blockCount_length]
  rw [← List.take_append_drop 10 (flipBit (frame a p) k), first10]
  refine checkHeader_frameHeader a hp ?_
  rw [List.length_drop, extent]; omega

variable (hk : k / 8 < (frame a p).length)
include hk

/-- A bit of a start byte: BadStart at that byte. -/
theorem headerVerdict_flip_start (h : k / 8 < 2) :
    ∃ e, HeaderVerdict (flipBit (frame a p) k) (.error e) ∧ e.err = .badStart ∧ e.offset = k / 8 := by
  have given : 10 ≤ (flipBit (frame a p) k).length := (headerIntact_frame hp).whole.trans_eq (flipBit_length _ k).symm
  have changed := byteAt_flipBit_ne hk
  obtain first | second : k / 8 = 0 ∨ k / 8 = 1 := by omega
  · rw [first] at changed ⊢
    exact ⟨_, .badStart0 (by omega) changed, rfl, rfl⟩
  · have start0 : byteAt (flipBit (frame a p) k) 0 = cfg.start0 := byteAt_flipBit_other (by omega)
    rw [second] at changed ⊢
    exact ⟨_, .badStart1 (by omega) start0 changed, rfl, rfl⟩

/-- A bit of the rest of the header: BadHeaderCrc. -/
theorem headerVerdict_flip_header (h2 : 2 ≤ k / 8) (h10 : k / 8 < 10) :
    ∃ e, HeaderVerdict (flipBit (frame a p) k) (.error e) ∧ e.err = .badHeaderCrc := by
  have intact := headerIntact_frame (a := a) hp
  have started : Started (flipBit (frame a p) k) :=
    ⟨fun _ => byteAt_flipBit_other (by omega), fun _ => byteAt_flipBit_other (by omega)⟩
  have good : crc16 (slice (frame a p) 2 6) = word16At (frame a p) 8 := (headerCrc_take _).symm.trans intact.crc
  have bad := crc16_slice_flipBit_ne good h2 h10 hk
  rw [← headerCrc_take] at bad
  exact ⟨_, .badCrc started (intact.whole.trans_eq (flipBit_length _ k).symm) bad, rfl⟩

end

/-- Settles O26: by the part of the frame the bit is in. -/
theorem linkSingleBitRejection : Obligations.LinkSingleBitRejection := by
  intro a p s u k hp run hk
  obtain rfl := next_inj ((linkEncode_ok (s := s.setIn p) hp).symm.trans run)
  have inside : k / 8 < (frame a p).length := Nat.div_lt_of_lt_mul hk
  rcases Nat.lt_or_ge (k / 8) 2 with start | h2
  · obtain ⟨e, verdict, err, offset⟩ := headerVerdict_flip_start hp inside start
    refine ⟨_, verdict.linkDecode_eq (s := s.setIn (flipBit (frame a p) k)), rfl, fun _ => ⟨?_, ?_⟩,
      fun h => absurd start (Nat.not_lt.2 h), fun h => absurd start (by omega)⟩
    · exact congrArg Err.code err
    · exact congrArg (BitVec.ofNat 16) offset
  rcases Nat.lt_or_ge (k / 8) 10 with header | h10
  · obtain ⟨e, verdict, err⟩ := headerVerdict_flip_header hp inside h2 header
    exact ⟨_, verdict.linkDecode_eq (s := s.setIn (flipBit (frame a p) k)), rfl, fun h => absurd h (Nat.not_lt.2 h2),
      fun _ _ => congrArg Err.code err, fun h => absurd header (Nat.not_lt.2 h)⟩
  · exact ⟨_, linkDecode_block_error (s := s.setIn (flipBit (frame a p) k)) (checkHeader_flip_behind hp h10)
      (decBlocks_flip inside h10), rfl, fun h => absurd h (Nat.not_lt.2 h2), fun _ h => absurd h (Nat.not_lt.2 h10),
      fun _ => ⟨rfl, rfl⟩⟩

end Sys2Proof.Machine
